-- ==== Sys2Proof/Word.lean ====
section
/-! DEFINITION. The word types of the PIC16F8X (spec/00_scope.md R6, R7): 8-bit data, 14-bit instruction words,
13-bit program addresses, 7-bit file operands. -/

namespace Sys2Proof

/-- A data word: "an 8-bit wide data path" (R6). -/
abbrev Byte := BitVec 8

/-- An instruction word: bits 13 down to 0 (R7, R120). -/
abbrev InstrWord := BitVec 14

/-- A program address: the PC is 13 bits wide and counts 14-bit words (R23). -/
abbrev PAddr := BitVec 13

/-- The `f` operand of an instruction: a 7-bit register file address (R11, R127). -/
abbrev FileAddr := BitVec 7

/-- The `b` operand: a bit number 0 to 7, bit 0 least significant (R127). -/
abbrev BitNo := BitVec 3

/-- The 11-bit `k` operand of CALL and GOTO (R124, R127). -/
abbrev JumpLit := BitVec 11

end Sys2Proof
end

