-- ==== Sys2Proof/Syntax.lean ====
section
/-! DEFINITION. The instruction set: one constructor for each row of spec/opcode_table.json, in the table's order
(spec/30_encoding.md R128). Operands have exactly the width of their field (R127), so no operand is out of range. -/

namespace Sys2Proof

/-- The destination select bit `d` (R89, R126): 0 = W, 1 = the file register. -/
inductive Dest where
  | w | f
  deriving DecidableEq, Repr

/-- The instructions of R128: 35 of Table 9-2, OPTION, and the two words of TRIS. -/
inductive Instr where
  | addwf (f : FileAddr) (d : Dest)
  | andwf (f : FileAddr) (d : Dest)
  | clrf (f : FileAddr)
  | clrw
  | comf (f : FileAddr) (d : Dest)
  | decf (f : FileAddr) (d : Dest)
  | decfsz (f : FileAddr) (d : Dest)
  | incf (f : FileAddr) (d : Dest)
  | incfsz (f : FileAddr) (d : Dest)
  | iorwf (f : FileAddr) (d : Dest)
  | movf (f : FileAddr) (d : Dest)
  | movwf (f : FileAddr)
  | nop
  | rlf (f : FileAddr) (d : Dest)
  | rrf (f : FileAddr) (d : Dest)
  | subwf (f : FileAddr) (d : Dest)
  | swapf (f : FileAddr) (d : Dest)
  | xorwf (f : FileAddr) (d : Dest)
  | bcf (f : FileAddr) (b : BitNo)
  | bsf (f : FileAddr) (b : BitNo)
  | btfsc (f : FileAddr) (b : BitNo)
  | btfss (f : FileAddr) (b : BitNo)
  | addlw (k : Byte)
  | andlw (k : Byte)
  | call (k : JumpLit)
  | clrwdt
  | goto (k : JumpLit)
  | iorlw (k : Byte)
  | movlw (k : Byte)
  | retfie
  | retlw (k : Byte)
  | ret
  | sleep
  | sublw (k : Byte)
  | xorlw (k : Byte)
  | option
  | trisA
  | trisB
  deriving DecidableEq, Repr

end Sys2Proof
end

