-- ==== Sys2Proof/Decode.lean ====
section
/-! DEFINITION. Decoding a 14-bit word by the procedure of spec/30_encoding.md R129, total, rejecting the reserved
words of R130 by name; after it the encoder, written from the encodings of R128 with every don't-care bit 0; and
R128's table of masks and matches as data. -/

namespace Sys2Proof

/-- Why a word is no instruction (R130): the two groups of reserved words. -/
inductive Reject where
  /-- A word of `00 0000 0xxx xxxx` that is no row of R128. -/
  | reservedSpecial (w : InstrWord)
  /-- A word of `11 1011 xxxx xxxx`. -/
  | reservedLiteral (w : InstrWord)
  deriving DecidableEq, Repr

/-- `f = word[6:0]` (R127). -/
def fieldF (w : InstrWord) : FileAddr := w.extractLsb' 0 7

/-- `d = word[7]` (R127). -/
def fieldD (w : InstrWord) : Dest := if w.getLsbD 7 then .f else .w

/-- `b = word[9:7]` (R127). -/
def fieldB (w : InstrWord) : BitNo := w.extractLsb' 7 3

/-- The 8-bit literal `k = word[7:0]` (R127). -/
def fieldK (w : InstrWord) : Byte := w.extractLsb' 0 8

/-- The 11-bit literal `k = word[10:0]` (R127). -/
def fieldJ (w : InstrWord) : JumpLit := w.extractLsb' 0 11

/-- R129, special group `00 0000 0`: decodes on `word[6:0]`. -/
def decodeSpecial (w : InstrWord) : Except Reject Instr :=
  match (fieldF w).toNat with
  | 0x00 | 0x20 | 0x40 | 0x60 => .ok .nop
  | 0x08 => .ok .ret
  | 0x09 => .ok .retfie
  | 0x62 => .ok .option
  | 0x63 => .ok .sleep
  | 0x64 => .ok .clrwdt
  | 0x65 => .ok .trisA
  | 0x66 => .ok .trisB
  | _ => .error (.reservedSpecial w)

/-- R129, `word[13:12] = 00`: format B, decodes on `word[11:8]`. -/
def decodeByteOriented (w : InstrWord) : Except Reject Instr :=
  match (w.extractLsb' 8 4).toNat with
  | 0b0000 => match fieldD w with
    | .f => .ok (.movwf (fieldF w))
    | .w => decodeSpecial w
  | 0b0001 => match fieldD w with
    | .f => .ok (.clrf (fieldF w))
    | .w => .ok .clrw
  | 0b0010 => .ok (.subwf (fieldF w) (fieldD w))
  | 0b0011 => .ok (.decf (fieldF w) (fieldD w))
  | 0b0100 => .ok (.iorwf (fieldF w) (fieldD w))
  | 0b0101 => .ok (.andwf (fieldF w) (fieldD w))
  | 0b0110 => .ok (.xorwf (fieldF w) (fieldD w))
  | 0b0111 => .ok (.addwf (fieldF w) (fieldD w))
  | 0b1000 => .ok (.movf (fieldF w) (fieldD w))
  | 0b1001 => .ok (.comf (fieldF w) (fieldD w))
  | 0b1010 => .ok (.incf (fieldF w) (fieldD w))
  | 0b1011 => .ok (.decfsz (fieldF w) (fieldD w))
  | 0b1100 => .ok (.rrf (fieldF w) (fieldD w))
  | 0b1101 => .ok (.rlf (fieldF w) (fieldD w))
  | 0b1110 => .ok (.swapf (fieldF w) (fieldD w))
  | _ => .ok (.incfsz (fieldF w) (fieldD w))

/-- R129, `word[13:12] = 01`: format T, decodes on `word[11:10]`. -/
def decodeBitOriented (w : InstrWord) : Instr :=
  match (w.extractLsb' 10 2).toNat with
  | 0b00 => .bcf (fieldF w) (fieldB w)
  | 0b01 => .bsf (fieldF w) (fieldB w)
  | 0b10 => .btfsc (fieldF w) (fieldB w)
  | _ => .btfss (fieldF w) (fieldB w)

/-- R129, `word[13:12] = 10`: format J, decodes on `word[11]`. -/
def decodeJump (w : InstrWord) : Instr :=
  if w.getLsbD 11 then .goto (fieldJ w) else .call (fieldJ w)

/-- R129, `word[13:12] = 11`: format L, decodes on `word[11:8]`. -/
def decodeLiteral (w : InstrWord) : Except Reject Instr :=
  match (w.extractLsb' 8 4).toNat with
  | 0b0000 | 0b0001 | 0b0010 | 0b0011 => .ok (.movlw (fieldK w))
  | 0b0100 | 0b0101 | 0b0110 | 0b0111 => .ok (.retlw (fieldK w))
  | 0b1000 => .ok (.iorlw (fieldK w))
  | 0b1001 => .ok (.andlw (fieldK w))
  | 0b1010 => .ok (.xorlw (fieldK w))
  | 0b1011 => .error (.reservedLiteral w)
  | 0b1100 | 0b1101 => .ok (.sublw (fieldK w))
  | _ => .ok (.addlw (fieldK w))

/-- The decoder (R129): total on the 16384 words. -/
def decode (w : InstrWord) : Except Reject Instr :=
  match (w.extractLsb' 12 2).toNat with
  | 0b00 => decodeByteOriented w
  | 0b01 => .ok (decodeBitOriented w)
  | 0b10 => .ok (decodeJump w)
  | _ => decodeLiteral w

/-- What the decoder reads from an instruction whose bits are `w`, `nbits` of them given; `none` where it refuses. A
number that does not fit the 14-bit word is no instruction. -/
def decodeTableWord (nbits w : Nat) : Option Instr :=
  if w % 2 ^ nbits < 2 ^ 14 then
    match decode (BitVec.ofNat 14 (w % 2 ^ nbits)) with
    | .ok i => some i
    | .error _ => none
  else none

/-- The bit of the word that holds `d` (R121). -/
def Dest.bit : Dest → BitVec 1
  | .w => 0b0#1
  | .f => 0b1#1

/-- Format B: `opcode[13:8] : d : f` (R121). -/
def formatB (op : BitVec 6) (d : Dest) (f : FileAddr) : InstrWord := op ++ d.bit ++ f

/-- Format T: `opcode[13:10] : b : f` (R122). -/
def formatT (op : BitVec 4) (b : BitNo) (f : FileAddr) : InstrWord := op ++ b ++ f

/-- Format L: `opcode[13:8] : k` (R123). -/
def formatL (op : BitVec 6) (k : Byte) : InstrWord := op ++ k

/-- Format J: `opcode[13:11] : k` (R124). -/
def formatJ (op : BitVec 3) (k : JumpLit) : InstrWord := op ++ k

/-- The encoder: R128's patterns with every don't-care bit 0, as the assembler writes them (R130). -/
def encode : Instr → InstrWord
  | .addwf f d => formatB 0b000111#6 d f
  | .andwf f d => formatB 0b000101#6 d f
  | .clrf f => formatB 0b000001#6 .f f
  | .clrw => 0b00000100000000#14
  | .comf f d => formatB 0b001001#6 d f
  | .decf f d => formatB 0b000011#6 d f
  | .decfsz f d => formatB 0b001011#6 d f
  | .incf f d => formatB 0b001010#6 d f
  | .incfsz f d => formatB 0b001111#6 d f
  | .iorwf f d => formatB 0b000100#6 d f
  | .movf f d => formatB 0b001000#6 d f
  | .movwf f => formatB 0b000000#6 .f f
  | .nop => 0b00000000000000#14
  | .rlf f d => formatB 0b001101#6 d f
  | .rrf f d => formatB 0b001100#6 d f
  | .subwf f d => formatB 0b000010#6 d f
  | .swapf f d => formatB 0b001110#6 d f
  | .xorwf f d => formatB 0b000110#6 d f
  | .bcf f b => formatT 0b0100#4 b f
  | .bsf f b => formatT 0b0101#4 b f
  | .btfsc f b => formatT 0b0110#4 b f
  | .btfss f b => formatT 0b0111#4 b f
  | .addlw k => formatL 0b111110#6 k
  | .andlw k => formatL 0b111001#6 k
  | .call k => formatJ 0b100#3 k
  | .clrwdt => 0b00000001100100#14
  | .goto k => formatJ 0b101#3 k
  | .iorlw k => formatL 0b111000#6 k
  | .movlw k => formatL 0b110000#6 k
  | .retfie => 0b00000000001001#14
  | .retlw k => formatL 0b110100#6 k
  | .ret => 0b00000000001000#14
  | .sleep => 0b00000001100011#14
  | .sublw k => formatL 0b111100#6 k
  | .xorlw k => formatL 0b111010#6 k
  | .option => 0b00000001100010#14
  | .trisA => 0b00000001100101#14
  | .trisB => 0b00000001100110#14

/-- One row of R128: a word `w` is the instruction iff `w & mask = value`. -/
structure OpcodeRow where
  mask : InstrWord
  value : InstrWord
  deriving DecidableEq, Repr

/-- The mask and match R128 prints for an instruction. -/
def Instr.row : Instr → OpcodeRow
  | .addwf .. => ⟨0x3F00#14, 0x0700#14⟩
  | .andwf .. => ⟨0x3F00#14, 0x0500#14⟩
  | .clrf .. => ⟨0x3F80#14, 0x0180#14⟩
  | .clrw => ⟨0x3F80#14, 0x0100#14⟩
  | .comf .. => ⟨0x3F00#14, 0x0900#14⟩
  | .decf .. => ⟨0x3F00#14, 0x0300#14⟩
  | .decfsz .. => ⟨0x3F00#14, 0x0B00#14⟩
  | .incf .. => ⟨0x3F00#14, 0x0A00#14⟩
  | .incfsz .. => ⟨0x3F00#14, 0x0F00#14⟩
  | .iorwf .. => ⟨0x3F00#14, 0x0400#14⟩
  | .movf .. => ⟨0x3F00#14, 0x0800#14⟩
  | .movwf .. => ⟨0x3F80#14, 0x0080#14⟩
  | .nop => ⟨0x3F9F#14, 0x0000#14⟩
  | .rlf .. => ⟨0x3F00#14, 0x0D00#14⟩
  | .rrf .. => ⟨0x3F00#14, 0x0C00#14⟩
  | .subwf .. => ⟨0x3F00#14, 0x0200#14⟩
  | .swapf .. => ⟨0x3F00#14, 0x0E00#14⟩
  | .xorwf .. => ⟨0x3F00#14, 0x0600#14⟩
  | .bcf .. => ⟨0x3C00#14, 0x1000#14⟩
  | .bsf .. => ⟨0x3C00#14, 0x1400#14⟩
  | .btfsc .. => ⟨0x3C00#14, 0x1800#14⟩
  | .btfss .. => ⟨0x3C00#14, 0x1C00#14⟩
  | .addlw .. => ⟨0x3E00#14, 0x3E00#14⟩
  | .andlw .. => ⟨0x3F00#14, 0x3900#14⟩
  | .call .. => ⟨0x3800#14, 0x2000#14⟩
  | .clrwdt => ⟨0x3FFF#14, 0x0064#14⟩
  | .goto .. => ⟨0x3800#14, 0x2800#14⟩
  | .iorlw .. => ⟨0x3F00#14, 0x3800#14⟩
  | .movlw .. => ⟨0x3C00#14, 0x3000#14⟩
  | .retfie => ⟨0x3FFF#14, 0x0009#14⟩
  | .retlw .. => ⟨0x3C00#14, 0x3400#14⟩
  | .ret => ⟨0x3FFF#14, 0x0008#14⟩
  | .sleep => ⟨0x3FFF#14, 0x0063#14⟩
  | .sublw .. => ⟨0x3E00#14, 0x3C00#14⟩
  | .xorlw .. => ⟨0x3F00#14, 0x3A00#14⟩
  | .option => ⟨0x3FFF#14, 0x0062#14⟩
  | .trisA => ⟨0x3FFF#14, 0x0065#14⟩
  | .trisB => ⟨0x3FFF#14, 0x0066#14⟩

end Sys2Proof
end

