-- ==== Sys2Proof/Config.lean ====
section
/-! DEFINITION. What a run fixes (spec/00_scope.md R6, spec/92_eei_decisions.md 'Open parameters') as plain data, and the
FREE VALUES: constants without a body, which stand for what the spec calls "any value" (R10). No proof can
learn a value of theirs, so what is proved holds for every value. -/

namespace Sys2Proof

/-- The four devices (R1, R2). -/
inductive Device where
  | f83 | f84 | cr83 | cr84
  deriving DecidableEq, Repr

/-- `PM_WORDS`: implemented program words, 512 on the '83 devices and 1024 on the '84 devices (R6, R100). -/
def Device.pmWords : Device → Nat
  | .f83 | .cr83 => 512
  | .f84 | .cr84 => 1024

/-- `GPR_TOP`: the highest general purpose register address of bank 0 (R6, R22). -/
def Device.gprTop : Device → Nat
  | .f83 | .cr83 => 0x2F
  | .f84 | .cr84 => 0x4F

/-- The configuration of a run (R6): what the device programmer fixed before it, and the open parameters of
spec/92_eei_decisions.md. No step changes it. The program image and the data EEPROM stand in the machine's state. -/
structure RunConfig where
  /-- `DEVICE` (D1). -/
  device : Device
  /-- `CONFIG`, the configuration word at 2007h (R322, R323). -/
  configWord : BitVec 14
  /-- `IDLOC[0..3]`, four usable bits each; no instruction reaches them (R321). -/
  idloc : Vector (BitVec 4) 4
  /-- `ADMIT_TRIS` (D5): whether the words 0x0065 and 0x0066 are the TRIS instruction. -/
  admitTris : Bool
  /-- `IRQ_EXTRA_INSTR` (D7, R237): `some b` fixes it, `none` leaves it free at every occurrence. -/
  irqExtra : Option Bool
  /-- `WDT_MIN_CYCLES` (D10, R252). -/
  wdtMin : Nat
  /-- `WDT_MAX_CYCLES` (D10, R252). `WDT_PERIOD` is fixed by taking the two bounds equal. -/
  wdtMax : Nat
  /-- The shortest data EEPROM write; `EE_WRITE_CYCLES` (D11, R317) is fixed by taking the two bounds equal. -/
  eeMin : Nat
  /-- The longest data EEPROM write. -/
  eeMax : Nat
  deriving DecidableEq, Repr

/-- WDTE, bit 2 of the configuration word on every device: 1 = WDT enabled (R322, R323, R250). -/
def RunConfig.wdte (c : RunConfig) : Bool := c.configWord.getLsbD 2

/-- FOSC1:FOSC0, bits 1:0 of the configuration word: 11 = RC, 10 = HS, 01 = XT, 00 = LP (R322, R323). -/
def RunConfig.fosc (c : RunConfig) : BitVec 2 := c.configWord.extractLsb' 0 2

/-- `OST_CYCLES` (R349): 1024 Tosc, that is 256 instruction-cycle times, in the XT, HS and LP modes; none in RC mode. -/
def RunConfig.ostCycles (c : RunConfig) : Nat := if c.fosc = 0b11#2 then 0 else 256

/-- What a free value stands for (R342, R313): each unknown the spec writes `any` is drawn apart from the others. -/
inductive Unknown where
  | stack (i : Nat) | presc | t0Sync | rbold | intPrev | t0Prev
  | w | tmr0 | fsr | lata | latb | eedata | eeadr | gpr (n : Nat) | flags | rbif | wrerr
  | eeCell | eeRead
  deriving DecidableEq, Repr

namespace Config

/-- FREE VALUE: an unknown register content of `width` bits, drawn at draw number `draw` (R10, R342, D16). -/
opaque unknown (what : Unknown) (width draw : Nat) : BitVec width

/-- FREE VALUE: the levels RA4..RA0 show where nothing drives them, anew at each reading (R279, U5). -/
opaque floatA (draw : Nat) : BitVec 5

/-- FREE VALUE: the levels RB7..RB0 show where nothing drives them and no pull-up is on (R279, U5). -/
opaque floatB (draw : Nat) : Byte

/-- FREE VALUE: whether one more instruction runs before a request is taken (R237, U16). -/
opaque irqExtraInstr (draw : Nat) : Bool

/-- FREE VALUE: whether the Watchdog's raw period ends now, inside its bounds (R252, U17). -/
opaque wdtPulseNow (draw : Nat) : Bool

/-- FREE VALUE: whether the data EEPROM write ends now, inside its bounds (R317, U18). -/
opaque eeWriteDone (draw : Nat) : Bool

/-- FREE VALUE: which reset kind acts when MCLR is low and a WDT time-out waits at one boundary (R231, R342; open). -/
opaque wdtBeatsMclr (draw : Nat) : Bool

end Config

end Sys2Proof
end

