-- ==== Sys2Proof/Machine/State.lean ====
section
/-! DEFINITION. The machine's state: every piece of state of spec/10_state.md R20 to R49, as plain data, with the
environment's levels (R279) and the run's configuration (R6) beside it, and the state right after a Power-on Reset
(spec/70_reset_and_hazards.md R342, R344). -/

namespace Sys2Proof.Machine

/-- An array of the machine: address and content pairs, addresses strictly rising, no entry equal to what an unlisted
address holds (`Memory.wf`). `Memory 8` is a list of `Host.Cell`. -/
abbrev Memory (n : Nat) := List (Nat × BitVec n)

/-- `EESEQ` (R48, R314): progress of the 55h, AAh sequence; the spec's 0, 1 and 2. -/
inductive EeSeq where
  | idle | got55 | gotAA
  deriving DecidableEq, Repr

/-- Where the recognition of an interrupt request stands (R237, R263). -/
inductive IrqPhase where
  /-- No request has been put off. -/
  | fresh
  /-- A request was put off by one instruction: the next boundary takes it if it still holds. -/
  | delayed
  /-- The device was woken by a request: one instruction runs without the interrupt check. -/
  | afterWake
  deriving DecidableEq, Repr

/-- What the environment `Env` presents in one cycle, or one unit of time asleep or in reset (R279, D19). A pin whose
`driven` bit is 0 floats, and its `level` bit says nothing. -/
structure PinSample where
  /-- Which of RA4..RA0 the environment drives. -/
  raDriven : BitVec 5
  /-- The levels it drives on RA4..RA0. -/
  raLevel : BitVec 5
  /-- Which of RB7..RB0 the environment drives. -/
  rbDriven : Byte
  /-- The levels it drives on RB7..RB0. -/
  rbLevel : Byte
  /-- MCLR is at its low level (R341 (b)). -/
  mclrLow : Bool
  /-- A rise of VDD gives a Power-on Reset pulse in this unit of time (R341 (a)). -/
  powerOn : Bool
  /-- T0CKI edges inside this cycle beyond the one its level shows (R304, U8). -/
  t0Edges : Nat
  deriving DecidableEq, Repr

/-- The state of the machine (R20): the CPU core, the peripherals, the arrays, and what stands outside the chip. -/
structure State where
  /-- `W`, the working register (R21). -/
  w : Byte
  /-- `pc`: the address of the next instruction to execute (R9, R23, R24). -/
  pc : PAddr
  /-- `STK[0..7]`, the return stack (R27). -/
  stk : Vector PAddr 8
  /-- `SP`, which no instruction can read (R27). -/
  sp : BitVec 3
  /-- STATUS: IRP RP1 RP0 TO PD Z DC C (R29). -/
  status : Byte
  /-- OPTION_REG: RBPU INTEDG T0CS T0SE PSA PS2 PS1 PS0 (R33). -/
  optionReg : Byte
  /-- INTCON: GIE EEIE T0IE INTE RBIE T0IF INTF RBIF (R34). -/
  intcon : Byte
  /-- PCLATH, bits 4:0; bits 7:5 are unimplemented (R35). -/
  pclath : BitVec 5
  /-- FSR, the indirect pointer (R37). -/
  fsr : Byte
  /-- TMR0 (R39). -/
  tmr0 : Byte
  /-- `LATA`, the PORTA data latch (R40, R48). -/
  lata : BitVec 5
  /-- TRISA, bits 4:0 (R40). -/
  trisa : BitVec 5
  /-- `LATB`, the PORTB data latch (R41, R48). -/
  latb : Byte
  /-- TRISB (R41). -/
  trisb : Byte
  /-- EECON1, bits 4:0: EEIF WRERR WREN WR RD (R42). -/
  eecon1 : BitVec 5
  /-- EEDATA (R44). -/
  eedata : Byte
  /-- EEADR (R44). -/
  eeadr : Byte
  /-- The general purpose registers, by bank 0 address (R22). -/
  ram : Memory 8
  /-- The data EEPROM, addresses 0 to 3Fh (R49, R310). -/
  eeprom : Memory 8
  /-- `PROG`, the program image by word address (R6, R100). -/
  prog : Memory 14
  /-- `RBOLD[7:4]`, the value latched on the last read of PORTB (R48, R290). -/
  rbold : BitVec 4
  /-- `INTPREV`, the previous level of RB0/INT (R48, R292). -/
  intPrev : Bool
  /-- `T0PREV`, the previous level of RA4/T0CKI (R48, R304). -/
  t0Prev : Bool
  /-- `PRESC`, the shared prescaler (R48, R301, R307). -/
  presc : Byte
  /-- `T0SYNC[1:0]`, the two-cycle synchroniser of Timer0 (R48, R301). -/
  t0Sync : BitVec 2
  /-- `T0SKIP`: Timer0 does not advance in the cycle of a write to TMR0 (R48, R303). -/
  t0Skip : Bool
  /-- `WDTCNT`, the Watchdog Timer's count of cycle times (R48, R252). -/
  wdtCnt : Nat
  /-- A WDT time-out while not SLEEPING waits for the next step boundary (R231 step 1, R253). -/
  wdtTimeout : Bool
  /-- `EESEQ` (R48, R314). -/
  eeSeq : EeSeq
  /-- `EEBUSY`: a data EEPROM write is in progress (R48, R315). -/
  eeBusy : Bool
  /-- `EEWADDR`, the address that write was started with (R48, R315). -/
  eeWAddr : Byte
  /-- `EEWDATA`, the data that write was started with (R48, R315). -/
  eeWData : Byte
  /-- `EETIMER`, the time that write has run (R48, R317). -/
  eeTimer : Nat
  /-- `SLEEPING` (R48, R260). -/
  sleeping : Bool
  /-- Cycle times the Oscillator Start-up Timer still delays the restart after a wake-up (R349). -/
  ostLeft : Nat
  /-- The chip is held in reset, because MCLR is still low since the reset took effect (R342, D21). -/
  inReset : Bool
  /-- Where the recognition of an interrupt request stands (R237, R263). -/
  irqPhase : IrqPhase
  /-- `cycles`: the instruction cycles the last instruction or interrupt entry takes, for `Tick` (R9, R231). -/
  cycles : Nat
  /-- What `Env` presents in the cycle that comes next (R279). -/
  pins : PinSample
  /-- What `Env` presents in the cycles after it; where the list ends, the last levels stay. -/
  pinQueue : List PinSample
  /-- The configuration of the run (R6). -/
  cfg : RunConfig
  /-- The MODEL's own field: how many draws of free values have been made (R10). -/
  draws : Nat
  deriving DecidableEq, Repr

/-- Reasons for a fault: NONE. "No instruction raises an exception"; no read or write "can fault, stall or fail" (R86,
R87, R230, D27), so nothing raises one; safe, since a model that never faults hides no stop of the chip. -/
inductive Fault where
  deriving DecidableEq, Repr

/-- Reasons for a refusal: the spec gives no meaning there and asks the model to refuse (R10, R130, R131, R95). -/
inductive Refusal where
  /-- Raised by an arm of `exec` whose instruction has no meaning yet; safe (it stops the run). -/
  | notModelled (mnemonic : String)
  /-- Raised by the step: the word fetched is a reserved word (R130, D4); safe (the chip would do something). -/
  | reservedWord (word : BitVec 14)
  /-- Raised by the TRIS words where `ADMIT_TRIS` is false (R131, R215, D5); safe. -/
  | trisNotAdmitted
  /-- Raised by DECFSZ and INCFSZ whose destination is PCL (R95, D14); safe. -/
  | skipOntoPcl
  deriving DecidableEq, Repr

/-- The outcome of an instruction or of a step. -/
abbrev Result := Host.Outcome State Fault Refusal

/-- What a program word the host did not give holds (R100, D25, G4): DESIGN CHOICE of assumption log entry 2. -/
def progFill : BitVec 14 := 0x3FFF#14

/-- What a general purpose register nothing has written holds: DESIGN CHOICE of assumption log entry 4. -/
def ramFill : Byte := 0x00#8

/-- What a data EEPROM cell nothing has written holds: DESIGN CHOICE of assumption log entry 6. -/
def eepromFill : Byte := 0xFF#8

/-- The environment of the reset state: every pin driven low, MCLR high (assumption log entry 8). -/
def pinsLow : PinSample :=
  { raDriven := 0x1F#5, raLevel := 0x00#5, rbDriven := 0xFF#8, rbLevel := 0x00#8, mclrLow := false,
    powerOn := false, t0Edges := 0 }

/-- The configuration of the reset state: PIC16F84, an unprogrammed configuration word (R322: RC oscillator, WDT
enabled), TRIS admitted, the open parameters free or at their nominal values (assumption log entries 1, 13 to 16). -/
def resetConfig : RunConfig :=
  { device := .f84, configWord := 0x3FFF#14, idloc := Vector.replicate 4 0x0#4, admitTris := true, irqExtra := none,
    wdtMin := 18000, wdtMax := 18000, eeMin := 10000, eeMax := 10000 }

/-- The machine right after a Power-on Reset (R342, R344 column A). Where the spec states no value (`x`, `any`) the
value is the one the assumption log names: zero (entries 3 to 7). -/
def State.reset : State :=
  { w := 0x00#8, pc := 0x0000#13, stk := Vector.replicate 8 0x0000#13, sp := 0#3
    status := 0b00011000#8, optionReg := 0xFF#8, intcon := 0x00#8, pclath := 0x00#5, fsr := 0x00#8
    tmr0 := 0x00#8, lata := 0x00#5, trisa := 0x1F#5, latb := 0x00#8, trisb := 0xFF#8
    eecon1 := 0b00000#5, eedata := 0x00#8, eeadr := 0x00#8
    ram := [], eeprom := [], prog := []
    rbold := 0x0#4, intPrev := false, t0Prev := false, presc := 0x00#8, t0Sync := 0b00#2, t0Skip := false
    wdtCnt := 0, wdtTimeout := false
    eeSeq := .idle, eeBusy := false, eeWAddr := 0x00#8, eeWData := 0x00#8, eeTimer := 0
    sleeping := false, ostLeft := 0, inReset := false, irqPhase := .fresh, cycles := 1
    pins := pinsLow, pinQueue := [], cfg := resetConfig, draws := 0 }

end Sys2Proof.Machine
end

