-- ==== Sys2Proof/Machine/Ops.lean ====
section
/-! DEFINITION. The named operations over the machine's arrays, the program counter, the return stack and the interrupt
system. Taking an interrupt is ONE operation here (`interruptEntry`, spec/60_exceptions.md R240), the return from it
beside it (`returnFromInterrupt`, R207). The hardware has no other exception (R230). -/

namespace Sys2Proof.Machine

/-! ### Arrays in canonical form -/

/-- The content at address `a`; an unlisted address holds `fill`. -/
def Memory.read {n : Nat} (fill : BitVec n) : Memory n → Nat → BitVec n
  | [], _ => fill
  | c :: m, a => if c.1 = a then c.2 else Memory.read fill m a

/-- The list with `v` put in front, unless `v` is what an unlisted address holds. -/
def Memory.put {n : Nat} (fill : BitVec n) (a : Nat) (v : BitVec n) (m : Memory n) : Memory n :=
  if v = fill then m else (a, v) :: m

/-- The array with `v` at address `a`, in canonical form again. -/
def Memory.write {n : Nat} (fill : BitVec n) : Memory n → Nat → BitVec n → Memory n
  | [], a, v => Memory.put fill a v []
  | c :: m, a, v =>
    if a < c.1 then Memory.put fill a v (c :: m)
    else if c.1 = a then Memory.put fill a v m
    else c :: Memory.write fill m a v

/-- The array with `g a` at each of `count` addresses from `start` on. -/
def Memory.fillWith {n : Nat} (fill : BitVec n) (g : Nat → BitVec n) : Memory n → Nat → Nat → Memory n
  | m, _, 0 => m
  | m, start, count + 1 => Memory.fillWith fill g (Memory.write fill m start (g start)) (start + 1) count

/-- The canonical form: addresses strictly rise and no entry equals what an unlisted address holds. -/
abbrev Memory.wf {n : Nat} (fill : BitVec n) (m : Memory n) : Prop :=
  m.Pairwise (fun x y => x.1 < y.1) ∧ ∀ c ∈ m, c.2 ≠ fill

/-- Every listed address lies between `lo` and `hi`. -/
abbrev Memory.within {n : Nat} (lo hi : Nat) (m : Memory n) : Prop := ∀ c ∈ m, lo ≤ c.1 ∧ c.1 ≤ hi

/-- The first general purpose register's address (R22). -/
def gprBottom : Nat := 0x0C

/-- The content of the general purpose register at bank 0 address `a` (R22). -/
def State.gpr (s : State) (a : Nat) : Byte := Memory.read ramFill s.ram a

/-- Write the general purpose register at bank 0 address `a`. -/
def State.setGpr (s : State) (a : Nat) (v : Byte) : State := { s with ram := Memory.write ramFill s.ram a v }

/-- The data EEPROM cell an EEADR value selects: `EEADR & 0x3F` (R313, D13). -/
def eeCell (adr : Byte) : Nat := (adr.extractLsb' 0 6).toNat

/-- The content of a data EEPROM cell, 0 to 3Fh (R310). -/
def State.eeRead (s : State) (a : Nat) : Byte := Memory.read eepromFill s.eeprom a

/-- Store into a data EEPROM cell: "a byte write automatically erases the location and writes the new data" (R310). -/
def State.setEe (s : State) (a : Nat) (v : Byte) : State :=
  { s with eeprom := Memory.write eepromFill s.eeprom a v }

/-! ### Program memory -/

/-- The implemented word a program address selects: `a mod PM_WORDS` (R100, R26). -/
def State.progIndex (s : State) (a : PAddr) : Nat := a.toNat % s.cfg.device.pmWords

/-- `ProgRead(a)` (R100). -/
def State.progRead (s : State) (a : PAddr) : InstrWord := Memory.read progFill s.prog (s.progIndex a)

/-- The word the next instruction fetch reads (R231 step 4). -/
def State.fetch (s : State) : InstrWord := s.progRead s.pc

/-! ### The program counter and the stack -/

/-- Go on with the next instruction after one cycle; the increment is modulo 8192 (R24, R136). -/
def State.sequential (s : State) : State := { s with pc := s.pc + 1, cycles := 1 }

/-- Go on at `target` after two cycles (R136). -/
def State.jump (s : State) (target : PAddr) : State := { s with pc := target, cycles := 2 }

/-- `PCLATH[4:3] : k`, where CALL and GOTO go (R25 (3)). -/
def State.pageTarget (s : State) (k : JumpLit) : PAddr := s.pclath.extractLsb' 3 2 ++ k

/-- The cell of the stack that `p` points to. -/
def State.stkAt (s : State) (p : BitVec 3) : PAddr := s.stk[p.toNat]'p.isLt

/-- `Push(v)` (R27): the ninth push overwrites the first. -/
def State.push (s : State) (v : PAddr) : State :=
  { s with stk := s.stk.set s.sp.toNat v s.sp.isLt, sp := s.sp + 1 }

/-- What `Pop()` returns (R28): the top of the stack. -/
def State.top (s : State) : PAddr := s.stkAt (s.sp - 1)

/-- What `Pop()` leaves (R28): the pointer moves, the cell is not erased. -/
def State.drop (s : State) : State := { s with sp := s.sp - 1 }

/-! ### STATUS, INTCON and OPTION_REG fields -/

/-- RP0 = STATUS[5] (R29). -/
def State.rp0 (s : State) : Bool := s.status.getLsbD 5

/-- C = STATUS[0] (R29). -/
def State.carry (s : State) : Bool := s.status.getLsbD 0

/-- STATUS with TO and PD replaced; the only way they change (R32). -/
def withToPd (status : Byte) (toBit pdBit : Bool) : Byte :=
  status.extractLsb' 5 3 ++ BitVec.ofBool toBit ++ BitVec.ofBool pdBit ++ status.extractLsb' 0 3

/-- GIE = INTCON[7] (R34). -/
def State.gie (s : State) : Bool := s.intcon.getLsbD 7

/-- INTCON with GIE replaced. -/
def withGie (intcon : Byte) (b : Bool) : Byte := BitVec.ofBool b ++ intcon.extractLsb' 0 7

/-- OPTION_REG bit 7, RBPU: 0 turns the PORTB pull-ups on (R33). -/
def State.pullUps (s : State) : Bool := !s.optionReg.getLsbD 7

/-- INTEDG = OPTION_REG[6]: 1 selects the rising edge of RB0/INT (R33). -/
def State.intEdge (s : State) : Bool := s.optionReg.getLsbD 6

/-- T0CS = OPTION_REG[5]: 1 clocks Timer0 from RA4/T0CKI (R33). -/
def State.t0cs (s : State) : Bool := s.optionReg.getLsbD 5

/-- T0SE = OPTION_REG[4]: 1 counts the falling edges of RA4/T0CKI (R33). -/
def State.t0se (s : State) : Bool := s.optionReg.getLsbD 4

/-- PSA = OPTION_REG[3]: 1 assigns the prescaler to the Watchdog Timer (R33). -/
def State.psa (s : State) : Bool := s.optionReg.getLsbD 3

/-- PS2:PS0 (R33). -/
def State.ps (s : State) : Nat := (s.optionReg.extractLsb' 0 3).toNat

/-! ### Interrupts -/

/-- `WakePending()` (R236): some interrupt flag stands with its enable, whatever GIE is. -/
def State.wakePending (s : State) : Bool :=
  (s.intcon.getLsbD 2 && s.intcon.getLsbD 5) || (s.intcon.getLsbD 1 && s.intcon.getLsbD 4)
    || (s.intcon.getLsbD 0 && s.intcon.getLsbD 3) || (s.eecon1.getLsbD 4 && s.intcon.getLsbD 6)

/-- The interrupt is requested to the CPU: `GIE & IntPending()` (R236). -/
def State.irqRequest (s : State) : Bool := s.gie && s.wakePending

/-- The interrupt vector (R101, R241). -/
def interruptVector : PAddr := 0x0004#13

/-- `InterruptEntry()` (R240): clear GIE, push the address of the instruction that would have come next, go to 0004h.
Nothing else is saved or changed. It takes two cycles. -/
def interruptEntry (s : State) : State :=
  (({ s with intcon := withGie s.intcon false }).push s.pc).jump interruptVector

/-- The return from an interrupt (R207, R244): pop the stack into the PC and set GIE; nothing else is restored. -/
def returnFromInterrupt (s : State) : State :=
  { (s.drop.jump s.top) with intcon := withGie s.intcon true }

/-! ### The Watchdog's counter -/

/-- Clear the Watchdog Timer, and with it the prescaler if that is assigned to it (R203, R210, R252, C12). -/
def clearWdt (s : State) : State :=
  { s with wdtCnt := 0, presc := if s.psa then 0x00#8 else s.presc }

end Sys2Proof.Machine
end

