-- ==== Sys2Proof/Machine/Eeprom.lean ====
section
/-! DEFINITION. The data EEPROM (spec/61_peripherals.md R310 to R317): reading, the write sequence, the write in progress and
its completion. -/

namespace Sys2Proof.Machine

/-- A time has come that lies between `lo` and `hi`: from `lo` on it may, at `hi` it must. -/
def due (lo hi elapsed : Nat) (draw : Bool) : Bool := decide (lo ≤ elapsed) && (decide (hi ≤ elapsed) || draw)

/-- `EERead()` (R313): EEDATA takes the cell; any value if that cell is being written (D22). -/
def eeReadOp (s : State) : State :=
  if s.eeBusy && decide (eeCell s.eeadr = eeCell s.eeWAddr) then
    { s with eedata := Config.unknown .eeRead 8 s.draws, draws := s.draws + 1 }
  else { s with eedata := s.eeRead (eeCell s.eeadr) }

/-- `EEStartWrite(wren_old)` (R315): the write starts only with WREN set before, after 55h and AAh, and with none in
progress; it takes the address and the data as they stand. EESEQ is spent in any case. -/
def eeStartWrite (wrenOld : Bool) (s : State) : State :=
  if wrenOld && decide (s.eeSeq = .gotAA) && !s.eeBusy then
    { s with eecon1 := s.eecon1 ||| 0b00010#5, eeBusy := true, eeWAddr := s.eeadr, eeWData := s.eedata,
             eeTimer := 0, eeSeq := .idle }
  else { s with eeSeq := .idle }

/-- A write of EECON1 (R312): EEIF, WRERR and WREN are stored; RD and WR can only be set, and start the read and then, if
permitted, the write; EESEQ returns to 0. -/
def writeEecon1 (v : Byte) (s : State) : State :=
  let wrenOld := s.eecon1.getLsbD 2
  let s1 := { s with eecon1 := v.extractLsb' 2 3 ++ s.eecon1.extractLsb' 0 2 }
  let s2 := if v.getLsbD 0 then eeReadOp s1 else s1
  if v.getLsbD 1 && !s.eecon1.getLsbD 1 then eeStartWrite wrenOld s2 else { s2 with eeSeq := .idle }

/-- A write of EECON2 (R314): nothing is stored, the sequence detector moves. -/
def writeEecon2 (v : Byte) (s : State) : State :=
  { s with eeSeq := if v = 0x55#8 then .got55 else if v = 0xAA#8 ∧ s.eeSeq = .got55 then .gotAA else .idle }

/-- Completion of a write (R317): the cell takes the data, WR is cleared, EEIF is set. -/
def eeComplete (s : State) : State :=
  { (s.setEe (eeCell s.eeWAddr) s.eeWData) with
    eecon1 := (s.eecon1 &&& 0b11101#5) ||| 0b10000#5, eeBusy := false }

/-- The write timer over one unit of time (R317). -/
def eeTimerCycle (s : State) : State :=
  if s.eeBusy then
    let s := { s with eeTimer := s.eeTimer + 1 }
    if due s.cfg.eeMin s.cfg.eeMax s.eeTimer (Config.eeWriteDone s.draws) then eeComplete s else s
  else s

end Sys2Proof.Machine
end

