-- ==== Sys2Proof/Machine/Flags.lean ====
section
/-! DEFINITION. Every flag computation of spec/10_state.md R31: which of Z, DC and C an operation writes and with what.
The results and flags of the arithmetic are computed together, from the exact sum. -/

namespace Sys2Proof.Machine

/-- The flags an instruction writes from its own logic (R31): `none` leaves the flag alone. -/
structure FlagUpdate where
  z : Option Bool
  dc : Option Bool
  c : Option Bool
  deriving DecidableEq, Repr

/-- No flag is affected. -/
def FlagUpdate.none : FlagUpdate := ⟨Option.none, Option.none, Option.none⟩

/-- The instruction affects no flag: the spec's `fl is empty` (R92). -/
def FlagUpdate.isEmpty (u : FlagUpdate) : Bool := u.z.isNone && u.dc.isNone && u.c.isNone

/-- STATUS with the flags of `u` set from the instruction's logic: Z is bit 2, DC bit 1, C bit 0 (R29). -/
def FlagUpdate.apply (u : FlagUpdate) (status : Byte) : Byte :=
  status.extractLsb' 3 5 ++ BitVec.ofBool (u.z.getD (status.getLsbD 2))
    ++ BitVec.ofBool (u.dc.getD (status.getLsbD 1)) ++ BitVec.ofBool (u.c.getD (status.getLsbD 0))

/-- Set the flags of `u` in the state's STATUS. -/
def State.setFlags (s : State) (u : FlagUpdate) : State := { s with status := u.apply s.status }

/-- Z = 1 iff the result is zero (R29, R31). -/
def zeroFlag (r : Byte) : Bool := r == 0x00#8

/-- A result with the flags the operation writes. -/
structure AluResult where
  value : Byte
  flags : FlagUpdate
  deriving DecidableEq, Repr

/-- A result whose operation writes Z only. -/
def AluResult.withZ (r : Byte) : AluResult := ⟨r, ⟨some (zeroFlag r), Option.none, Option.none⟩⟩

/-- A result whose operation writes no flag. -/
def AluResult.plain (r : Byte) : AluResult := ⟨r, FlagUpdate.none⟩

/-- `a +9 b`: the 9-bit sum of two zero-extended bytes (R8). -/
def sum9 (a b : Byte) : BitVec 9 := a.setWidth 9 + b.setWidth 9

/-- The low four bits of a byte as a number. -/
def lowNibble (a : Byte) : Nat := (a.extractLsb' 0 4).toNat

/-- Addition (R31): C from bit 8 of the 9-bit sum, DC from the sum of the low nibbles, Z from the result. -/
def aluAdd (a b : Byte) : AluResult :=
  let r9 := sum9 a b
  let r := r9.setWidth 8
  ⟨r, ⟨some (zeroFlag r), some (decide (lowNibble a + lowNibble b > 15)), some (r9.getLsbD 8)⟩⟩

/-- `minuend - subtrahend` (R31, D8): `minuend +9 ~subtrahend +9 1`; C and DC set mean that nothing was borrowed. -/
def aluSub (minuend subtrahend : Byte) : AluResult :=
  let r9 := sum9 minuend (~~~subtrahend) + 1#9
  let r := r9.setWidth 8
  ⟨r, ⟨some (zeroFlag r), some (decide (lowNibble minuend + lowNibble (~~~subtrahend) + 1 > 15)),
    some (r9.getLsbD 8)⟩⟩

/-- AND, Z only (R151, R201). -/
def aluAnd (a b : Byte) : AluResult := .withZ (a &&& b)

/-- Inclusive OR, Z only (R159, R205). -/
def aluOr (a b : Byte) : AluResult := .withZ (a ||| b)

/-- Exclusive OR, Z only (R167, R212). -/
def aluXor (a b : Byte) : AluResult := .withZ (a ^^^ b)

/-- Increment modulo 256 (R147). -/
def incByte (a : Byte) : Byte := a + 0x01#8

/-- Decrement modulo 256 (R147). -/
def decByte (a : Byte) : Byte := a - 0x01#8

/-- Rotate left through carry (R163): `a[6:0] : c`, and C takes `a[7]`. -/
def aluRlf (a : Byte) (c : Bool) : AluResult :=
  ⟨a.extractLsb' 0 7 ++ BitVec.ofBool c, ⟨Option.none, Option.none, some (a.getLsbD 7)⟩⟩

/-- Rotate right through carry (R164): `c : a[7:1]`, and C takes `a[0]`. -/
def aluRrf (a : Byte) (c : Bool) : AluResult :=
  ⟨BitVec.ofBool c ++ a.extractLsb' 1 7, ⟨Option.none, Option.none, some (a.getLsbD 0)⟩⟩

/-- Swap the nibbles (R166). -/
def swapNibbles (a : Byte) : Byte := a.extractLsb' 0 4 ++ a.extractLsb' 4 4

/-- The byte whose only set bit is bit `b`. -/
def bitMask (b : BitNo) : Byte := 0x01#8 <<< b.toNat

/-- Clear bit `b` (R190). -/
def clearBit (a : Byte) (b : BitNo) : Byte := a &&& ~~~(bitMask b)

/-- Set bit `b` (R191). -/
def setBit (a : Byte) (b : BitNo) : Byte := a ||| bitMask b

end Sys2Proof.Machine
end

