-- ==== Sys2Proof/Machine/Pins.lean ====
section
/-! DEFINITION. The I/O pins (spec/61_peripherals.md R279 to R292): the level of each pin, the RB0/INT edge detector and the
RB7:RB4 change comparator. -/

namespace Sys2Proof.Machine

/-- `PinA(i)` (R279): an output shows its latch, but RA4 only where its latch is 0 (open drain, R280); else what the
environment drives; a floating pin is any value (no pull-up on PORTA). -/
def State.pinA (s : State) (i : Nat) : Bool :=
  if !s.trisa.getLsbD i && !(decide (i = 4) && s.lata.getLsbD i) then s.lata.getLsbD i
  else if s.pins.raDriven.getLsbD i then s.pins.raLevel.getLsbD i
  else (Config.floatA s.draws).getLsbD i

/-- `PinB(i)` (R279): an output shows its latch; else what the environment drives; a floating input shows 1 with the
pull-ups on (R284), else any value. -/
def State.pinB (s : State) (i : Nat) : Bool :=
  if !s.trisb.getLsbD i then s.latb.getLsbD i
  else if s.pins.rbDriven.getLsbD i then s.pins.rbLevel.getLsbD i
  else if s.pullUps then true
  else (Config.floatB s.draws).getLsbD i

/-- What a read of PORTA returns (R281): `000 : PinA(4) : … : PinA(0)`. -/
def State.portA (s : State) : Byte :=
  0b000#3 ++ BitVec.ofBool (s.pinA 4) ++ BitVec.ofBool (s.pinA 3) ++ BitVec.ofBool (s.pinA 2)
    ++ BitVec.ofBool (s.pinA 1) ++ BitVec.ofBool (s.pinA 0)

/-- `PinB(7) : … : PinB(4)`, what RBOLD latches (R285). -/
def State.portBHigh (s : State) : BitVec 4 :=
  BitVec.ofBool (s.pinB 7) ++ BitVec.ofBool (s.pinB 6) ++ BitVec.ofBool (s.pinB 5) ++ BitVec.ofBool (s.pinB 4)

/-- What a read of PORTB returns (R285): `PinB(7) : … : PinB(0)`. -/
def State.portB (s : State) : Byte :=
  s.portBHigh ++ BitVec.ofBool (s.pinB 3) ++ BitVec.ofBool (s.pinB 2) ++ BitVec.ofBool (s.pinB 1)
    ++ BitVec.ofBool (s.pinB 0)

/-- The edge INTEDG selects is on RB0/INT between the last cycle and this one (R292). -/
def State.intPinEdge (s : State) : Bool :=
  if s.intEdge then !s.intPrev && s.pinB 0 else s.intPrev && !s.pinB 0

/-- The RB0/INT edge detector (R292): the edge sets INTF, whatever INTE and GIE are. -/
def intPinCycle (s : State) : State :=
  { s with intcon := if s.intPinEdge then s.intcon ||| 0x02#8 else s.intcon, intPrev := s.pinB 0 }

/-- RBi is an input whose level differs from the value latched on the last read of PORTB (R290). -/
def State.rbDiffers (s : State) (i : Nat) : Bool := s.trisb.getLsbD i && (s.pinB i != s.rbold.getLsbD (i - 4))

/-- The OR of the four mismatch outputs (R290). -/
def State.rbMismatch (s : State) : Bool := s.rbDiffers 4 || s.rbDiffers 5 || s.rbDiffers 6 || s.rbDiffers 7

/-- The RB port change comparator (R290): a mismatch sets RBIF, and goes on setting it while it lasts. -/
def rbChangeCycle (s : State) : State :=
  { s with intcon := if s.rbMismatch then s.intcon ||| 0x01#8 else s.intcon }

/-- The environment goes on to its next unit of time; where its list ends its levels stay (D19). -/
def advanceEnv (s : State) : State :=
  match s.pinQueue with
  | [] => { s with pins := { s.pins with powerOn := false } }
  | p :: ps => { s with pins := p, pinQueue := ps }

end Sys2Proof.Machine
end

