-- ==== Sys2Proof/Machine/Timer0.lean ====
section
/-! DEFINITION. Timer0 and its prescaler (spec/61_peripherals.md R301 to R306). -/

namespace Sys2Proof.Machine

/-- A software write of TMR0 (R303): the prescaler is cleared if Timer0 has it, pulses in flight are lost, and Timer0 does
not advance in the cycle of the write. T0IF is never set. -/
def writeTmr0 (v : Byte) (s : State) : State :=
  { s with tmr0 := v, presc := if s.psa then s.presc else 0x00#8, t0Sync := 0b00#2, t0Skip := true }

/-- The T0CKI input is the pin RA4, whatever TRISA[4] is (R283). -/
def State.t0cki (s : State) : Bool := s.pinA 4

/-- The edge T0SE selects is on RA4/T0CKI between the last level and this one (R304). -/
def State.t0Edge (s : State) : Bool := if s.t0se then s.t0Prev && !s.t0cki else !s.t0Prev && s.t0cki

/-- `T0Edge()` as a count (R304): the edge, and the further ones the environment puts inside the cycle (U8). -/
def State.t0Edges (s : State) : Nat := (if s.t0Edge then 1 else 0) + s.pins.t0Edges

/-- Timer0's prescaler ratio with PSA = 0: 1 : 2^(PS+1) (R33, R301). -/
def State.t0Ratio (s : State) : Nat := 2 * 2 ^ s.ps

/-- Whether `pulses` pulses make the prescaler give one (R301, R304): with PSA = 0 if its count passes a multiple of the
ratio, with PSA = 1 at once. -/
def prescalePulse (pulses : Nat) (s : State) : Bool :=
  if s.psa then decide (0 < pulses)
  else decide (s.presc.toNat / s.t0Ratio < (s.presc.toNat + pulses) / s.t0Ratio)

/-- The prescaler after `pulses` pulses: it counts only as Timer0's (R301). -/
def prescale (pulses : Nat) (s : State) : State :=
  if s.psa then s else { s with presc := BitVec.ofNat 8 (s.presc.toNat + pulses) }

/-- The synchroniser and the counter (R301): a pulse comes out two cycles after it went in; the step from FFh to 00h sets
T0IF (R305). -/
def t0Count (pulse : Bool) (s : State) : State :=
  { s with
    t0Sync := s.t0Sync.extractLsb' 0 1 ++ BitVec.ofBool pulse
    intcon := if s.t0Sync.getLsbD 1 && decide (s.tmr0 = 0xFF#8) then s.intcon ||| 0x04#8 else s.intcon
    tmr0 := if s.t0Sync.getLsbD 1 then s.tmr0 + 0x01#8 else s.tmr0 }

/-- The prescaler takes `pulses` pulses and the counter what comes of them. -/
def t0Clock (pulses : Nat) (s : State) : State := t0Count (prescalePulse pulses s) (prescale pulses s)

/-- `Timer0Cycle()` (R301): one instruction cycle of Timer0. T0PREV follows its pin in counter mode and in the cycle of a
write to TMR0. -/
def timer0Cycle (s : State) : State :=
  if s.t0Skip then { s with t0Skip := false, t0Prev := s.t0cki }
  else if s.t0cs then t0Clock s.t0Edges { s with t0Prev := s.t0cki }
  else t0Clock 1 s

end Sys2Proof.Machine
end

