-- ==== Sys2Proof/Machine/Operands.lean ====
section
/-! DEFINITION. File operands (spec/20_memory.md R80 to R99): which location an operand names, directly or through INDF, and the
read, write and destination operations every instruction with an `f` operand uses. -/

namespace Sys2Proof.Machine

/-- A location of the register file (R99). `null` is INDF reached through itself (R84). -/
inductive Loc where
  | null | tmr0 | pcl | status | fsr | porta | portb | unimplemented | eedata | eeadr | pclath | intcon
  | optionReg | trisa | trisb | eecon1 | eecon2
  | gpr (a : Nat)
  deriving DecidableEq, Repr

/-- The locations above the special function registers: general purpose registers up to `GPR_TOP`, the same cell in both
banks, and nothing beyond (R22, R45, R99). -/
def decodeGpr (dev : Device) (low : Nat) : Loc :=
  if gprBottom ≤ low ∧ low ≤ dev.gprTop then .gpr low else .unimplemented

/-- `Decode(a)` (R99) for the bank and the low seven bits of an 8-bit data address. -/
def decodeLoc (dev : Device) (bank1 : Bool) (low : Nat) : Loc :=
  match low, bank1 with
  | 0x00, _ => .null
  | 0x01, false => .tmr0
  | 0x01, true => .optionReg
  | 0x02, _ => .pcl
  | 0x03, _ => .status
  | 0x04, _ => .fsr
  | 0x05, false => .porta
  | 0x05, true => .trisa
  | 0x06, false => .portb
  | 0x06, true => .trisb
  | 0x07, _ => .unimplemented
  | 0x08, false => .eedata
  | 0x08, true => .eecon1
  | 0x09, false => .eeadr
  | 0x09, true => .eecon2
  | 0x0A, _ => .pclath
  | 0x0B, _ => .intcon
  | n, _ => decodeGpr dev n

/-- `Decode(a)` (R99) for an 8-bit data address: bit 7 is the bank (R81). -/
def decodeAddr (dev : Device) (a : Byte) : Loc := decodeLoc dev (a.getLsbD 7) (a.extractLsb' 0 7).toNat

/-- `EA(f) = STATUS[5] : f` (R82); RP1 and IRP take no part (R83, D2). -/
def State.ea (s : State) (f : FileAddr) : Byte := BitVec.ofBool s.rp0 ++ f

/-- `Resolve(f)` (R85): the operand INDF stands for the address in FSR, one level deep; RP0 plays no part there (R84). -/
def resolve (f : FileAddr) (s : State) : Loc :=
  if f = 0x00#7 then decodeAddr s.cfg.device s.fsr else decodeAddr s.cfg.device (s.ea f)

/-- `MemRead(loc)` (R86): the value read, and the state after the read. Reading PORTB latches RBOLD; reading a port draws
the levels of floating pins anew (U5). -/
def memRead (loc : Loc) (s : State) : Byte × State :=
  match loc with
  | .null => (0x00#8, s)
  | .tmr0 => (s.tmr0, s)
  | .pcl => ((s.pc + 1).extractLsb' 0 8, s)
  | .status => (s.status, s)
  | .fsr => (s.fsr, s)
  | .porta => (s.portA, { s with draws := s.draws + 1 })
  | .portb => (s.portB, { s with rbold := s.portBHigh, draws := s.draws + 1 })
  | .unimplemented => (0x00#8, s)
  | .eedata => (s.eedata, s)
  | .eeadr => (s.eeadr, s)
  | .pclath => (0b000#3 ++ s.pclath, s)
  | .intcon => (s.intcon, s)
  | .optionReg => (s.optionReg, s)
  | .trisa => (0b000#3 ++ s.trisa, s)
  | .trisb => (s.trisb, s)
  | .eecon1 => (0b000#3 ++ s.eecon1, s)
  | .eecon2 => (0x00#8, s)
  | .gpr a => (s.gpr a, s)

/-- STATUS as a destination (R92): TO and PD are not writable; Z, DC and C are written only by an instruction that affects
none of them. -/
def writeStatus (v : Byte) (noFlags : Bool) (status : Byte) : Byte :=
  v.extractLsb' 5 3 ++ status.extractLsb' 3 2 ++ (if noFlags then v.extractLsb' 0 3 else status.extractLsb' 0 3)

/-- `MemWrite(loc, v, fl)` (R87), where `noFlags` says that `fl` is empty. -/
def memWrite (loc : Loc) (v : Byte) (noFlags : Bool) (s : State) : State :=
  match loc with
  | .null => s
  | .tmr0 => writeTmr0 v s
  | .pcl => s.jump (s.pclath ++ v)
  | .status => { s with status := writeStatus v noFlags s.status }
  | .fsr => { s with fsr := v }
  | .porta => { s with lata := v.extractLsb' 0 5 }
  | .portb => { s with latb := v }
  | .unimplemented => s
  | .eedata => { s with eedata := v }
  | .eeadr => { s with eeadr := v }
  | .pclath => { s with pclath := v.extractLsb' 0 5 }
  | .intcon => { s with intcon := v }
  | .optionReg => { s with optionReg := v }
  | .trisa => { s with trisa := v.extractLsb' 0 5 }
  | .trisb => { s with trisb := v }
  | .eecon1 => writeEecon1 v s
  | .eecon2 => writeEecon2 v s
  | .gpr a => s.setGpr a v

/-- Write a result to the file register at `loc` and set the flags the instruction affects (R90, R92). -/
def writeFile (loc : Loc) (r : AluResult) (s : State) : State :=
  (memWrite loc r.value r.flags.isEmpty s).setFlags r.flags

/-- `WriteDest(f, d, v, fl)` (R89, R90) with the flags set from the instruction's logic. -/
def writeDest (loc : Loc) (d : Dest) (r : AluResult) (s : State) : State :=
  match d with
  | .w => ({ s with w := r.value }).setFlags r.flags
  | .f => writeFile loc r s

/-- The shape of an instruction `f,d` (R145): the operand is read once, the result of `op` on it goes to the destination,
and the next instruction follows unless the destination is PCL. -/
def fileOp (f : FileAddr) (d : Dest) (op : Byte → AluResult) (s : State) : Result :=
  let loc := resolve f s
  let a := (memRead loc s).1
  .next (writeDest loc d (op a) (memRead loc s).2.sequential)

/-- Whether the destination of `f,d` is PCL, directly or through INDF (R95). -/
def destIsPcl (f : FileAddr) (d : Dest) (s : State) : Bool := decide (d = .f) && decide (resolve f s = .pcl)

/-- Go on after a skip instruction at `pc` (R148): the next word is discarded where `taken`, in a second cycle. -/
def skipIf (taken : Bool) (pc : PAddr) (s : State) : State := if taken then s.jump (pc + 2) else s

/-- The shape of DECFSZ and INCFSZ (R148, R156, R158): no flag, and a skip if the result is 0. A destination PCL has no
meaning (R95). -/
def skipOp (f : FileAddr) (d : Dest) (op : Byte → Byte) (s : State) : Result :=
  if destIsPcl f d s then .refused .skipOntoPcl
  else
    let loc := resolve f s
    let r := op (memRead loc s).1
    .next (skipIf (r == 0x00#8) s.pc (writeDest loc d (.plain r) (memRead loc s).2.sequential))

/-- The shape of BTFSC and BTFSS (R192, R193): the register is read, nothing is written, and the next word is skipped if
`cond` holds of the byte read. -/
def bitTest (f : FileAddr) (cond : Byte → Bool) (s : State) : Result :=
  let loc := resolve f s
  .next (skipIf (cond (memRead loc s).1) s.pc (memRead loc s).2.sequential)

/-- The shape of the literal instructions (R145): the result goes to W, with the flags it affects. -/
def literalOp (r : AluResult) (s : State) : Result :=
  .next (({ s.sequential with w := r.value }).setFlags r.flags)

end Sys2Proof.Machine
end

