-- ==== Sys2Proof/Machine/BitOriented.lean ====
section
/-! DEFINITION. The bit-oriented file register instructions (spec/41_bit_oriented.md R190 to R193). -/

namespace Sys2Proof.Machine

/-- BCF (R190): the whole byte is read and written back; no flag. -/
def execBcf (f : FileAddr) (b : BitNo) (s : State) : Result := fileOp f .f (fun a => .plain (clearBit a b)) s

/-- BSF (R191). -/
def execBsf (f : FileAddr) (b : BitNo) (s : State) : Result := fileOp f .f (fun a => .plain (setBit a b)) s

/-- BTFSC (R192): skip if the bit is 0. -/
def execBtfsc (f : FileAddr) (b : BitNo) (s : State) : Result := bitTest f (fun a => !a.getLsbD b.toNat) s

/-- BTFSS (R193): skip if the bit is 1. -/
def execBtfss (f : FileAddr) (b : BitNo) (s : State) : Result := bitTest f (fun a => a.getLsbD b.toNat) s

end Sys2Proof.Machine
end

