-- ==== Sys2Proof/Machine/ByteOriented.lean ====
section
/-! DEFINITION. The byte-oriented file register instructions (spec/40_byte_oriented.md R150 to R167). -/

namespace Sys2Proof.Machine

/-- ADDWF (R150): W + f. -/
def execAddwf (f : FileAddr) (d : Dest) (s : State) : Result := fileOp f d (fun a => aluAdd a s.w) s

/-- ANDWF (R151). -/
def execAndwf (f : FileAddr) (d : Dest) (s : State) : Result := fileOp f d (fun a => aluAnd a s.w) s

/-- CLRF (R152): the register is read before it is written; Z is set. -/
def execClrf (f : FileAddr) (s : State) : Result := fileOp f .f (fun _ => .withZ 0x00#8) s

/-- CLRW (R153): no register is read. -/
def execClrw (s : State) : Result := literalOp (.withZ 0x00#8) s

/-- COMF (R154). -/
def execComf (f : FileAddr) (d : Dest) (s : State) : Result := fileOp f d (fun a => .withZ (~~~a)) s

/-- DECF (R155): Z only. -/
def execDecf (f : FileAddr) (d : Dest) (s : State) : Result := fileOp f d (fun a => .withZ (decByte a)) s

/-- DECFSZ (R156). -/
def execDecfsz (f : FileAddr) (d : Dest) (s : State) : Result := skipOp f d decByte s

/-- INCF (R157): Z only. -/
def execIncf (f : FileAddr) (d : Dest) (s : State) : Result := fileOp f d (fun a => .withZ (incByte a)) s

/-- INCFSZ (R158). -/
def execIncfsz (f : FileAddr) (d : Dest) (s : State) : Result := skipOp f d incByte s

/-- IORWF (R159). -/
def execIorwf (f : FileAddr) (d : Dest) (s : State) : Result := fileOp f d (fun a => aluOr a s.w) s

/-- MOVF (R160): Z only; with d = 1 a real write of the register with its own value. -/
def execMovf (f : FileAddr) (d : Dest) (s : State) : Result := fileOp f d (fun a => .withZ a) s

/-- MOVWF (R161): the register is read before it is written; no flag. -/
def execMovwf (f : FileAddr) (s : State) : Result := fileOp f .f (fun _ => .plain s.w) s

/-- NOP (R162). -/
def execNop (s : State) : Result := .next s.sequential

/-- RLF (R163): the carry-in is C as it stands before the instruction. -/
def execRlf (f : FileAddr) (d : Dest) (s : State) : Result := fileOp f d (fun a => aluRlf a s.carry) s

/-- RRF (R164). -/
def execRrf (f : FileAddr) (d : Dest) (s : State) : Result := fileOp f d (fun a => aluRrf a s.carry) s

/-- SUBWF (R165): f - W. -/
def execSubwf (f : FileAddr) (d : Dest) (s : State) : Result := fileOp f d (fun a => aluSub a s.w) s

/-- SWAPF (R166): no flag. -/
def execSwapf (f : FileAddr) (d : Dest) (s : State) : Result := fileOp f d (fun a => .plain (swapNibbles a)) s

/-- XORWF (R167). -/
def execXorwf (f : FileAddr) (d : Dest) (s : State) : Result := fileOp f d (fun a => aluXor a s.w) s

end Sys2Proof.Machine
end

