-- ==== Sys2Proof/Machine/LiteralControl.lean ====
section
/-! DEFINITION. The literal and control instructions (spec/42_literal_control.md R200 to R212) and the legacy OPTION and TRIS
(R214, R215). -/

namespace Sys2Proof.Machine

/-- ADDLW (R200). -/
def execAddlw (k : Byte) (s : State) : Result := literalOp (aluAdd s.w k) s

/-- ANDLW (R201). -/
def execAndlw (k : Byte) (s : State) : Result := literalOp (aluAnd s.w k) s

/-- CALL (R202): push `pc + 1`, go to `PCLATH[4:3] : k`. -/
def execCall (k : JumpLit) (s : State) : Result := .next ((s.push (s.pc + 1)).jump (s.pageTarget k))

/-- CLRWDT (R203): clear the Watchdog, set TO and PD, whatever WDTE is (D28). -/
def execClrwdt (s : State) : Result :=
  .next { (clearWdt s).sequential with status := withToPd s.status true true }

/-- GOTO (R204). -/
def execGoto (k : JumpLit) (s : State) : Result := .next (s.jump (s.pageTarget k))

/-- IORLW (R205). -/
def execIorlw (k : Byte) (s : State) : Result := literalOp (aluOr s.w k) s

/-- MOVLW (R206): no flag. -/
def execMovlw (k : Byte) (s : State) : Result := literalOp (.plain k) s

/-- RETFIE (R207). -/
def execRetfie (s : State) : Result := .next (returnFromInterrupt s)

/-- RETLW (R208). -/
def execRetlw (k : Byte) (s : State) : Result := .next { (s.drop.jump s.top) with w := k }

/-- RETURN (R209). -/
def execReturn (s : State) : Result := .next (s.drop.jump s.top)

/-- SLEEP (R210, R265): a NOP where an enabled flag already stands (GIE ignored); else clear the Watchdog, TO = 1, PD = 0,
and the device sleeps at the next address. -/
def execSleep (s : State) : Result :=
  if s.wakePending then .next s.sequential
  else .next { (clearWdt s).sequential with status := withToPd s.status true false, sleeping := true }

/-- SUBLW (R211): k - W. -/
def execSublw (k : Byte) (s : State) : Result := literalOp (aluSub k s.w) s

/-- XORLW (R212). -/
def execXorlw (k : Byte) (s : State) : Result := literalOp (aluXor s.w k) s

/-- OPTION (R214): OPTION_REG takes W, whatever RP0 is. -/
def execOption (s : State) : Result := .next { s.sequential with optionReg := s.w }

/-- TRIS 5 (R215, general knowledge of the family): TRISA takes W, where `ADMIT_TRIS` holds. -/
def execTrisA (s : State) : Result :=
  if s.cfg.admitTris then .next { s.sequential with trisa := s.w.extractLsb' 0 5 } else .refused .trisNotAdmitted

/-- TRIS 6 (R215, general knowledge of the family): TRISB takes W, where `ADMIT_TRIS` holds. -/
def execTrisB (s : State) : Result :=
  if s.cfg.admitTris then .next { s.sequential with trisb := s.w } else .refused .trisNotAdmitted

end Sys2Proof.Machine
end

