-- ==== Sys2Proof/Machine/Reset.lean ====
section
/-! DEFINITION. The device resets (spec/70_reset_and_hazards.md R340 to R346): what requests one, and `Reset(kind)`. What the spec
leaves as `any` is drawn free. -/

namespace Sys2Proof.Machine

/-- The kinds of device reset (R340, R342). -/
inductive ResetKind where
  | por | mclrRun | mclrSleep | wdtRun
  deriving DecidableEq, Repr

/-- TO and PD after a reset (R342, R343). -/
def resetToPd (kind : ResetKind) (status : Byte) : Bool × Bool :=
  match kind with
  | .por => (true, true)
  | .mclrRun => (status.getLsbD 4, status.getLsbD 3)
  | .mclrSleep => (true, false)
  | .wdtRun => (false, true)

/-- What every reset does (R342) but for the unknowns of a Power-on Reset: the reset values of Table 8-4's column B, the
write cut short (R346), and the hidden state. -/
def warmReset (kind : ResetKind) (s : State) : State :=
  let d := s.draws
  let wrerr := s.eeBusy || s.eecon1.getLsbD 3
  { s with
    eeprom := if s.eeBusy then
        Memory.write eepromFill s.eeprom (eeCell s.eeWAddr) (Config.unknown .eeCell 8 d) else s.eeprom
    eeBusy := false
    pc := 0x0000#13
    status := 0b000#3 ++ BitVec.ofBool (resetToPd kind s.status).1 ++ BitVec.ofBool (resetToPd kind s.status).2
      ++ s.status.extractLsb' 0 3
    pclath := 0x00#5
    intcon := 0b0000000#7 ++ s.intcon.extractLsb' 0 1
    optionReg := 0xFF#8
    trisa := 0x1F#5
    trisb := 0xFF#8
    eecon1 := 0b0#1 ++ BitVec.ofBool wrerr ++ 0b000#3
    stk := Vector.ofFn (fun i => Config.unknown (.stack i.val) 13 d)
    eeSeq := .idle
    sleeping := false
    t0Skip := false
    wdtCnt := 0
    wdtTimeout := false
    ostLeft := 0
    irqPhase := .fresh
    presc := Config.unknown .presc 8 d
    t0Sync := Config.unknown .t0Sync 2 d
    rbold := Config.unknown .rbold 4 d
    intPrev := (Config.unknown .intPrev 1 d).getLsbD 0
    t0Prev := (Config.unknown .t0Prev 1 d).getLsbD 0
    inReset := s.pins.mclrLow
    draws := d + 1 }

/-- The registers that only a Power-on Reset makes unknown (R342, R344 column A, D24). -/
def porUnknowns (d : Nat) (s : State) : State :=
  { s with
    w := Config.unknown .w 8 d
    tmr0 := Config.unknown .tmr0 8 d
    fsr := Config.unknown .fsr 8 d
    lata := Config.unknown .lata 5 d
    latb := Config.unknown .latb 8 d
    eedata := Config.unknown .eedata 8 d
    eeadr := Config.unknown .eeadr 8 d
    status := s.status.extractLsb' 3 5 ++ Config.unknown .flags 3 d
    intcon := s.intcon.extractLsb' 1 7 ++ Config.unknown .rbif 1 d
    eecon1 := s.eecon1.extractLsb' 4 1 ++ Config.unknown .wrerr 1 d ++ s.eecon1.extractLsb' 0 3
    ram := Memory.fillWith ramFill (fun a => Config.unknown (.gpr a) 8 d) s.ram gprBottom
      (s.cfg.device.gprTop + 1 - gprBottom) }

/-- `Reset(kind)` (R342). -/
def deviceReset (kind : ResetKind) (s : State) : State :=
  match kind with
  | .por => porUnknowns s.draws (warmReset .por s)
  | .mclrRun => warmReset .mclrRun s
  | .mclrSleep => warmReset .mclrSleep s
  | .wdtRun => warmReset .wdtRun s

/-- A WDT time-out waits and the device is not SLEEPING (R231 step 1). -/
def State.wdtResetDue (s : State) : Bool := s.wdtTimeout && !s.sleeping

/-- The reset requested at a step boundary (R231 step 1, R341). A Power-on Reset overrides the others; where MCLR is low
and a WDT time-out waits, the spec leaves the kind open. While the chip is held in reset by MCLR none is requested. -/
def State.resetRequest (s : State) : Option ResetKind :=
  if s.pins.powerOn then some .por
  else if s.pins.mclrLow && s.inReset then none
  else if s.pins.mclrLow then
    if s.sleeping then some .mclrSleep
    else if s.wdtTimeout && Config.wdtBeatsMclr s.draws then some .wdtRun
    else some .mclrRun
  else if s.wdtResetDue then some .wdtRun
  else none

/-- A requested reset takes effect (D21). A pulse on a pin lasts the unit of time in which it is presented; a WDT reset
takes no time of the environment's. -/
def takeReset (kind : ResetKind) (s : State) : State :=
  match kind with
  | .wdtRun => deviceReset .wdtRun s
  | .por => advanceEnv (deviceReset .por s)
  | .mclrRun => advanceEnv (deviceReset .mclrRun s)
  | .mclrSleep => advanceEnv (deviceReset .mclrSleep s)

end Sys2Proof.Machine
end

