-- ==== Sys2Proof/Machine/Watchdog.lean ====
section
/-! DEFINITION. The Watchdog Timer's time (spec/60_exceptions.md R250 to R254) and the wake-ups from SLEEP (R262, R263). -/

namespace Sys2Proof.Machine

/-- Leaving SLEEP (R262, R263): execution goes on at `pc`, after the oscillator's start-up time (R349). T0PREV is re-sampled,
so that no edge of the time asleep is counted (R306). -/
def wake (s : State) : State := { s with sleeping := false, ostLeft := s.cfg.ostCycles, t0Prev := s.t0cki }

/-- Wake-up by the Watchdog (R262): TO is cleared, PD stays as it is. -/
def wakeByWdt (s : State) : State :=
  wake { s with status := withToPd s.status false (s.status.getLsbD 3) }

/-- Wake-up by an interrupt request (R263): one instruction runs without the interrupt check. -/
def wakeByRequest (s : State) : State := { (wake s) with irqPhase := .afterWake }

/-- A WDT time-out (R253, R254): asleep it wakes the device, else it asks for a reset at the next step boundary. -/
def wdtTimeoutEvent (s : State) : State := if s.sleeping then wakeByWdt s else { s with wdtTimeout := true }

/-- A raw pulse of the Watchdog Timer with WDTE = 1 (R252): a time-out at once with PSA = 0, through the postscaler
1 : 2^PS with PSA = 1. -/
def wdtPulse (s : State) : State :=
  if s.psa then
    let s := { s with presc := s.presc + 0x01#8 }
    if s.presc.toNat % 2 ^ s.ps = 0 then wdtTimeoutEvent s else s
  else wdtTimeoutEvent s

/-- The Watchdog Timer over one unit of time (R252). It is free running; with WDTE = 0 no pulse comes of it (R250). -/
def wdtCycle (s : State) : State :=
  let s := { s with wdtCnt := s.wdtCnt + 1 }
  if due s.cfg.wdtMin s.cfg.wdtMax s.wdtCnt (Config.wdtPulseNow s.draws) then
    let s := { s with wdtCnt := 0 }
    if s.cfg.wdte then wdtPulse s else s
  else s

end Sys2Proof.Machine
end

