-- ==== Sys2Proof/Machine/Tick.lean ====
section
/-! DEFINITION. What runs beside the CPU: `Tick(n)` (spec/61_peripherals.md R300), and the same agents less Timer0 over a unit
of time without an instruction cycle, in SLEEP (spec/60_exceptions.md R261) and while the oscillator starts (R349). -/

namespace Sys2Proof.Machine

/-- The cycle is over: the environment goes on, and the next cycle draws its free values anew. -/
def endCycle (s : State) : State := advanceEnv { s with draws := s.draws + 1 }

/-- `TickCycle()` (R300): on the pins of this cycle INT and RB change, Timer0, the EEPROM timer, the Watchdog; then the
environment's next cycle. -/
def tickCycle (s : State) : State :=
  endCycle (wdtCycle (eeTimerCycle (timer0Cycle (rbChangeCycle (intPinCycle s)))))

/-- `Tick(n)` (R300). -/
def tick : Nat → State → State
  | 0, s => s
  | n + 1, s => tick n (tickCycle s)

/-- One unit of time without an instruction cycle (R261, R349): Timer0 and its prescaler stand still, and T0PREV follows
its pin so that no edge of this time is counted (R306). -/
def idleCycle (s : State) : State :=
  endCycle (wdtCycle (eeTimerCycle { (rbChangeCycle (intPinCycle s)) with t0Prev := s.t0cki }))

/-- `SleepStep` (R261): a wake-up that stands is taken; else one unit of time passes, and a request that comes later is a
new one (R237). -/
def sleepStep (s : State) : State := if s.wakePending then wakeByRequest s else idleCycle { s with irqPhase := .fresh }

/-- One unit of the oscillator's start-up time after a wake-up (R349). -/
def ostStep (s : State) : State := idleCycle { s with ostLeft := s.ostLeft - 1 }

end Sys2Proof.Machine
end

