-- ==== Sys2Proof/Machine/Run.lean ====
section
/-! DEFINITION. The machine step (spec/60_exceptions.md R231): resets, SLEEP, interrupt recognition, and one instruction with the
ticks it takes. `Step.lean` calls `stepOnce`. -/

namespace Sys2Proof.Machine

/-- Step 5 of R231 after step 4: the peripherals advance by the cycles the instruction took. -/
def afterExec (r : Result) : Result :=
  match r with
  | .next t => .next (tick t.cycles t)
  | .fault e => .fault e
  | .refused e => .refused e

/-- Steps 4 and 5 of R231: fetch, decode, execute, tick. A reserved word is refused (R130). -/
def runInstruction (s : State) : Result :=
  match decode s.fetch with
  | .ok i => afterExec (exec i s)
  | .error _ => .refused (.reservedWord s.fetch)

/-- Whether a request that is new at this boundary waits for one more instruction: `IRQ_EXTRA_INSTR`, fixed by the run's
configuration or free at every occurrence (R237). -/
def State.irqWaits (s : State) : Bool :=
  match s.cfg.irqExtra with
  | some b => b
  | none => Config.irqExtraInstr s.draws

/-- The interrupt is taken, in two cycles (R231 step 3, R240). -/
def takeInterrupt (s : State) : State := tick 2 (interruptEntry { s with irqPhase := .fresh })

/-- Steps 3 to 5 of R231 at an instruction boundary, with the recognition of R237 and, after a wake-up, of R263. -/
def boundaryStep (s : State) : Result :=
  match s.irqPhase with
  | .afterWake => runInstruction { s with irqPhase := .delayed }
  | .delayed =>
    if s.irqRequest then .next (takeInterrupt s) else runInstruction { s with irqPhase := .fresh }
  | .fresh =>
    if s.irqRequest then
      if s.irqWaits then runInstruction { s with irqPhase := .delayed } else .next (takeInterrupt s)
    else runInstruction s

/-- The device runs: neither in reset nor asleep (R231 steps 2 to 5), nor waiting for its oscillator (R349). -/
def runningStep (s : State) : Result :=
  if 0 < s.ostLeft then .next (ostStep s)
  else if s.sleeping then .next (sleepStep s)
  else boundaryStep s

/-- One step of the whole machine (R231). While MCLR holds the chip in reset nothing changes but the environment (D21). -/
def stepOnce (s : State) : Result :=
  match s.resetRequest with
  | some kind => .next (takeReset kind s)
  | none =>
    if s.pins.mclrLow then .next (advanceEnv s)
    else runningStep { s with inReset := false }

/-- A word put where the next fetch reads. -/
def placeWord (s : State) (word : InstrWord) : State :=
  { s with prog := Memory.write progFill s.prog (s.progIndex s.pc) word }

end Sys2Proof.Machine
end

