-- ==== Sys2Proof/WellFormed.lean ====
section
/-! DEFINITION. Which instructions the spec gives a meaning. The operand ranges of R133 hold by type. Two checks are
left: the TRIS words are instructions only where `ADMIT_TRIS` holds (R131), and a skip instruction may not name PCL
as its destination (spec/20_memory.md R95, D14). -/

namespace Sys2Proof

/-- The file operand of PCL (R134): 02h in either bank. -/
def pclOperand : FileAddr := 0x02#7

/-- R95: DECFSZ and INCFSZ whose destination is PCL have no meaning. -/
def skipDestOk (f : FileAddr) (d : Dest) : Bool := !(d == .f && f == pclOperand)

/-- The form of an instruction is one the spec gives a meaning, where `admitTris` is the run's `ADMIT_TRIS`. -/
def Instr.wellFormed (admitTris : Bool) : Instr → Bool
  | .decfsz f d => skipDestOk f d
  | .incfsz f d => skipDestOk f d
  | .trisA => admitTris
  | .trisB => admitTris
  | .addwf .. | .andwf .. | .clrf .. | .clrw | .comf .. | .decf .. | .incf .. | .iorwf .. | .movf .. | .movwf ..
  | .nop | .rlf .. | .rrf .. | .subwf .. | .swapf .. | .xorwf .. | .bcf .. | .bsf .. | .btfsc .. | .btfss ..
  | .addlw .. | .andlw .. | .call .. | .clrwdt | .goto .. | .iorlw .. | .movlw .. | .retfie | .retlw .. | .ret
  | .sleep | .sublw .. | .xorlw .. | .option => true

end Sys2Proof
end

