-- ==== Sys2Proof/Safety.lean ====
section
/-! DEFINITION. The terms in which claims about the machine are stated: the invariant of every state a run can be in, when a
step runs an instruction, and what "the result goes to the destination and these flags change" means (R90). -/

namespace Sys2Proof

/-- The bits of an instruction's word that R130 lists as don't-care. -/
def Instr.dontCare : Instr → InstrWord
  | .clrw => 0x007F#14
  | .nop => 0x0060#14
  | .movlw _ => 0x0300#14
  | .retlw _ => 0x0300#14
  | .addlw _ => 0x0100#14
  | .sublw _ => 0x0100#14
  | .addwf .. | .andwf .. | .clrf .. | .comf .. | .decf .. | .decfsz .. | .incf .. | .incfsz .. | .iorwf .. | .movf ..
  | .movwf .. | .rlf .. | .rrf .. | .subwf .. | .swapf .. | .xorwf .. | .bcf .. | .bsf .. | .btfsc .. | .btfss ..
  | .andlw .. | .call .. | .clrwdt | .goto .. | .iorlw .. | .retfie | .ret | .sleep | .xorlw .. | .option
  | .trisA | .trisB => 0x0000#14

/-- The words that match no row of R128 when the TRIS words are admitted (R130). -/
def reservedWord (w : InstrWord) : Bool :=
  (decide (0x3B00 ≤ w.toNat) && decide (w.toNat ≤ 0x3BFF))
    || (decide (w.toNat < 0x80)
      && !([0x00, 0x20, 0x40, 0x60, 0x08, 0x09, 0x62, 0x63, 0x64, 0x65, 0x66].contains w.toNat))

/-- The file register an instruction's result goes to, as its operand field and destination bit (R89, R90); no entry for an
instruction that has no such destination. -/
def Instr.fileDest : Instr → Option (FileAddr × Dest)
  | .addwf f d | .andwf f d | .comf f d | .decf f d | .decfsz f d | .incf f d | .incfsz f d | .iorwf f d | .movf f d
  | .rlf f d | .rrf f d | .subwf f d | .swapf f d | .xorwf f d => some (f, d)
  | .clrf f | .movwf f | .bcf f _ | .bsf f _ => some (f, .f)
  | .clrw | .nop | .btfsc .. | .btfss .. | .addlw .. | .andlw .. | .call .. | .clrwdt | .goto .. | .iorlw .. | .movlw ..
  | .retfie | .retlw .. | .ret | .sleep | .sublw .. | .xorlw .. | .option | .trisA | .trisB => none

namespace Machine

/-- Z = STATUS[2] (R29). -/
def State.zero (s : State) : Bool := s.status.getLsbD 2

/-- DC = STATUS[1] (R29). -/
def State.digitCarry (s : State) : Bool := s.status.getLsbD 1

/-- TO = STATUS[4] (R29). -/
def State.timeOut (s : State) : Bool := s.status.getLsbD 4

/-- PD = STATUS[3] (R29). -/
def State.powerDown (s : State) : Bool := s.status.getLsbD 3

/-- What holds of every state a run can be in. It is kept by every step, from every state in which it holds. -/
structure State.Inv (s : State) : Prop where
  /-- The general purpose registers are in canonical form and lie in the device's range (R22). -/
  ramForm : Memory.wf ramFill s.ram
  ramRange : Memory.within gprBottom s.cfg.device.gprTop s.ram
  /-- The data EEPROM is in canonical form and has 64 cells (R49, R310). -/
  eepromForm : Memory.wf eepromFill s.eeprom
  eepromRange : Memory.within 0 0x3F s.eeprom
  /-- The program image is in canonical form and has the device's size (R100). -/
  progForm : Memory.wf progFill s.prog
  progRange : Memory.within 0 (s.cfg.device.pmWords - 1) s.prog
  /-- RD never reads 1 (R311, D29). -/
  rdClear : s.eecon1.getLsbD 0 = false
  /-- WR reads 1 exactly while a write is in progress (R311, R316). -/
  wrBusy : s.eecon1.getLsbD 1 = s.eeBusy
  /-- Asleep, STATUS reads uuu1 0uuu (R210), no WDT reset waits (R254), no start-up time runs (R349). -/
  asleep : s.sleeping = true →
    s.timeOut = true ∧ s.powerDown = false ∧ s.wdtTimeout = false ∧ s.ostLeft = 0 ∧ s.inReset = false
  /-- An instruction takes one cycle or two (R136). -/
  oneOrTwo : s.cycles = 1 ∨ s.cycles = 2
  /-- Held in reset, the program counter stands at the reset vector with interrupts off and no write running (R342). -/
  held : s.inReset = true → s.pc = 0x0000#13 ∧ s.gie = false ∧ s.eeBusy = false
  /-- The Watchdog's count stays under its longest period (R252). -/
  wdtBound : s.cfg.wdtMin ≤ s.cfg.wdtMax → 0 < s.cfg.wdtMax → s.wdtCnt < s.cfg.wdtMax
  /-- A write in progress has not run longer than the longest write (R317). -/
  eeBound : s.cfg.eeMin ≤ s.cfg.eeMax → 0 < s.cfg.eeMax → s.eeBusy = true → s.eeTimer < s.cfg.eeMax

/-- The device runs: no reset is requested, MCLR is high, it neither sleeps nor waits for its oscillator (R231). -/
structure State.Running (s : State) : Prop where
  noReset : s.resetRequest = none
  mclrHigh : s.pins.mclrLow = false
  awake : s.sleeping = false
  started : s.ostLeft = 0

/-- The machine runs an instruction at this step: no interrupt is taken, because none is requested, because the step is the one
after a wake-up (R263), or because a new request waits for one more instruction (R237). -/
structure State.RunsInstruction (s : State) : Prop extends s.Running where
  noEntry : s.irqPhase = .afterWake ∨ s.irqRequest = false ∨ (s.irqPhase = .fresh ∧ s.irqWaits = true)

/-- Where the recognition of interrupts stands while that instruction runs: a request that waited, or that woke the device, is
taken at the next boundary if it still holds. -/
def State.phaseDuring (s : State) : IrqPhase :=
  match s.irqPhase with
  | .afterWake => .delayed
  | .delayed => .fresh
  | .fresh => if s.irqRequest then .delayed else .fresh

/-- `t` is `m` but for the flags `u` writes: Z, DC and C are as `u` says where it says, every other bit of STATUS and every
other field is as in `m`. -/
structure FlagsSet (u : FlagUpdate) (m t : State) : Prop where
  only : t = { m with status := t.status }
  z : t.zero = u.z.getD m.zero
  dc : t.digitCarry = u.dc.getD m.digitCarry
  c : t.carry = u.c.getD m.carry
  rest : ∀ n, 3 ≤ n → t.status.getLsbD n = m.status.getLsbD n

/-- The operand an instruction with file operand `f` reads (R88). -/
def State.operand (s : State) (f : FileAddr) : Byte := (memRead (resolve f s) s).1

/-- The state after that read, the next instruction selected, one cycle counted (R145). -/
def State.afterRead (s : State) (f : FileAddr) : State :=
  { (memRead (resolve f s) s).2 with pc := s.pc + 1, cycles := 1 }

/-- The state after result `r` went to the destination, before the flags are set (R90): W, or `MemWrite` to the location
resolved at the start. -/
def State.stored (s : State) (f : FileAddr) (d : Dest) (r : Byte) (noFlags : Bool) : State :=
  match d with
  | .w => { s.afterRead f with w := r }
  | .f => memWrite (resolve f s) r noFlags (s.afterRead f)

/-- Instruction `i` completes with result `r` at destination `d` of operand `f` and sets the flags `u` (R90, R145). -/
def FileResult (i : Instr) (f : FileAddr) (d : Dest) (s : State) (r : Byte) (u : FlagUpdate) : Prop :=
  ∃ t, exec i s = .next t ∧ FlagsSet u (s.stored f d r u.isEmpty) t

/-- Instruction `i` completes with `r` in W and sets the flags `u`; nothing else changes but the PC. -/
def LiteralResult (i : Instr) (s : State) (r : Byte) (u : FlagUpdate) : Prop :=
  ∃ t, exec i s = .next t ∧ FlagsSet u { s with w := r, pc := s.pc + 1, cycles := 1 } t

/-- `n` applications of `g`. -/
def times (g : State → State) : Nat → State → State
  | 0, s => s
  | n + 1, s => times g n (g s)

end Machine

end Sys2Proof
end

