-- ==== Sys2Proof/Certificates/Slice0/Obligations.lean ====
section
/-! DEFINITION. The statements for the provers, from the numbered rules of spec/: encoding, the invariant, the register file, every
instruction's result with its frame, the whole-machine rules, the stack and the interrupt, SLEEP and the Watchdog Timer, the
resets, and the peripherals. `FileResult` and `LiteralResult` (Sys2Proof/Safety.lean) conclude that `exec` answers a next state and
say all of that state. -/

open Sys2Proof Sys2Proof.Machine

/-! ### Encoding -/

/-- Decoding the encoder's word gives the instruction back, for every instruction and every operand value. -/
def Obligations.DecodeOfEncode : Prop := ∀ i : Instr, decode (encode i) = .ok i

/-- R128: the word `w` is an instruction of a row iff `w & mask = match`. The rows' masks and matches tell the rows apart, so a
word that matches a row decodes to an instruction of that row. -/
def Obligations.DecodeFollowsTheOpcodeTable : Prop :=
  (∀ w i, decode w = .ok i → w &&& i.row.mask = i.row.value)
    ∧ ∀ w (i : Instr), w &&& i.row.mask = i.row.value → ∃ j, decode w = .ok j ∧ j.row = i.row

/-- R127, R130: the decoder reads every bit of the word but the don't-care bits: encoding what it reads gives the word back with
the don't-care bits 0. -/
def Obligations.DecodeReadsEveryOperandBit : Prop :=
  ∀ w i, decode w = .ok i → encode i = w &&& ~~~i.dontCare

/-- R130 (the spec's decision D4): a word is refused by the decoder exactly if it is one of the listed reserved words; the step that fetches one is
refused, and runs no neighbour; words that differ in don't-care bits only are one instruction. -/
def Obligations.ReservedWordsAreRefused : Prop :=
  (∀ w, (∃ r, decode w = .error r) ↔ reservedWord w = true)
    ∧ (∀ s : State, s.RunsInstruction → reservedWord s.fetch = true → step s = .refused (.reservedWord s.fetch))
    ∧ ∀ w v i, decode w = .ok i → w &&& ~~~i.dontCare = v &&& ~~~i.dontCare → decode v = .ok i

/-- A few words written out from the patterns of R128 decode to their instructions. -/
def Obligations.SpecWordsDecode : Prop :=
  decode 0b00011110001100#14 = .ok (.addwf 0x0C#7 .f) ∧ decode 0b00000010001100#14 = .ok (.movwf 0x0C#7)
    ∧ decode 0b00000101111111#14 = .ok .clrw ∧ decode 0b01011010000011#14 = .ok (.bsf 0x03#7 5#3)
    ∧ decode 0b11000001011010#14 = .ok (.movlw 0x5A#8) ∧ decode 0b11111111111111#14 = .ok (.addlw 0xFF#8)
    ∧ decode 0b10000100100011#14 = .ok (.call 0x123#11) ∧ decode 0b00000000001001#14 = .ok .retfie
    ∧ decode 0b00000001100011#14 = .ok .sleep ∧ decode 0b00000001100110#14 = .ok .trisB

/-! ### The step and the invariant -/

/-- R231 steps 4 and 5: where the machine runs an instruction, the step is `exec` of the instruction decoded at the PC, then the
ticks of its cycles; what stops the instruction stops the step. -/
def Obligations.StepRunsTheDecodedInstruction : Prop :=
  ∀ (s : State) (i : Instr), s.RunsInstruction → decode s.fetch = .ok i →
    (∀ t, exec i { s with inReset := false, irqPhase := s.phaseDuring } = .next t → step s = .next (tick t.cycles t))
      ∧ ∀ r, exec i { s with inReset := false, irqPhase := s.phaseDuring } = .refused r → step s = .refused r

/-- Every step keeps the invariant, from every state that has it. -/
def Obligations.InvariantKeptByEveryStep : Prop := ∀ s t : State, s.Inv → step s = .next t → t.Inv

/-- The state after a Power-on Reset has the invariant. -/
def Obligations.InvariantAtReset : Prop := State.reset.Inv

/-! ### The register file -/

/-- R99: the data address map, both banks; the general purpose registers are one cell in the two banks, and there is nothing
above them. -/
def Obligations.DataAddressMap : Prop :=
  (Device.f83.gprTop = 0x2F ∧ Device.cr83.gprTop = 0x2F ∧ Device.f84.gprTop = 0x4F ∧ Device.cr84.gprTop = 0x4F)
  ∧ ∀ dev : Device,
    (decodeAddr dev 0x00#8 = .null ∧ decodeAddr dev 0x80#8 = .null)
    ∧ (decodeAddr dev 0x01#8 = .tmr0 ∧ decodeAddr dev 0x81#8 = .optionReg)
    ∧ (decodeAddr dev 0x02#8 = .pcl ∧ decodeAddr dev 0x82#8 = .pcl)
    ∧ (decodeAddr dev 0x03#8 = .status ∧ decodeAddr dev 0x83#8 = .status)
    ∧ (decodeAddr dev 0x04#8 = .fsr ∧ decodeAddr dev 0x84#8 = .fsr)
    ∧ (decodeAddr dev 0x05#8 = .porta ∧ decodeAddr dev 0x85#8 = .trisa)
    ∧ (decodeAddr dev 0x06#8 = .portb ∧ decodeAddr dev 0x86#8 = .trisb)
    ∧ (decodeAddr dev 0x07#8 = .unimplemented ∧ decodeAddr dev 0x87#8 = .unimplemented)
    ∧ (decodeAddr dev 0x08#8 = .eedata ∧ decodeAddr dev 0x88#8 = .eecon1)
    ∧ (decodeAddr dev 0x09#8 = .eeadr ∧ decodeAddr dev 0x89#8 = .eecon2)
    ∧ (decodeAddr dev 0x0A#8 = .pclath ∧ decodeAddr dev 0x8A#8 = .pclath)
    ∧ (decodeAddr dev 0x0B#8 = .intcon ∧ decodeAddr dev 0x8B#8 = .intcon)
    ∧ (∀ n, 0x0C ≤ n → n ≤ dev.gprTop →
        decodeAddr dev (BitVec.ofNat 8 n) = .gpr n ∧ decodeAddr dev (BitVec.ofNat 8 (0x80 + n)) = .gpr n)
    ∧ ∀ n, dev.gprTop < n → n ≤ 0x7F →
        decodeAddr dev (BitVec.ofNat 8 n) = .unimplemented
          ∧ decodeAddr dev (BitVec.ofNat 8 (0x80 + n)) = .unimplemented

/-- R82 to R85: an operand other than 0 names the address RP0 : f; operand 0 names the address in FSR, one level deep, whatever
RP0 is; IRP and RP1 take no part (the spec's decision D2). -/
def Obligations.OperandResolution : Prop :=
  ∀ (f : FileAddr) (s : State),
    (f ≠ 0x00#7 →
      resolve f s = decodeAddr s.cfg.device (BitVec.ofNat 8 (f.toNat + if s.status.getLsbD 5 then 0x80 else 0)))
    ∧ (f = 0x00#7 → s.fsr.toNat % 0x80 = 0 → resolve f s = .null)
    ∧ (f = 0x00#7 → s.fsr.toNat % 0x80 ≠ 0 → resolve f s = decodeAddr s.cfg.device s.fsr)
    ∧ (f = 0x00#7 → ∀ v, resolve f { s with status := v } = resolve f s)
    ∧ ∀ v : Byte, v.getLsbD 5 = s.status.getLsbD 5 → resolve f { s with status := v } = resolve f s

/-- R22: an operand from 0Ch on names the same location in both banks. -/
def Obligations.BankMirrorOfGeneralRegisters : Prop :=
  ∀ (f : FileAddr) (s : State) (v : Byte), 0x0C ≤ f.toNat → resolve f { s with status := v } = resolve f s

/-- R86: the value each location reads as, and that only PORTB has a side effect (the field `draws` is the model's own count of
free values). -/
def Obligations.MemReadTable : Prop :=
  ∀ s : State,
    memRead .null s = (0x00#8, s) ∧ memRead .unimplemented s = (0x00#8, s) ∧ memRead .eecon2 s = (0x00#8, s)
    ∧ memRead .tmr0 s = (s.tmr0, s) ∧ memRead .status s = (s.status, s) ∧ memRead .fsr s = (s.fsr, s)
    ∧ ((memRead .pcl s).1.toNat = (s.pc.toNat + 1) % 256 ∧ (memRead .pcl s).2 = s)
    ∧ memRead .eedata s = (s.eedata, s) ∧ memRead .eeadr s = (s.eeadr, s) ∧ memRead .intcon s = (s.intcon, s)
    ∧ memRead .optionReg s = (s.optionReg, s) ∧ memRead .trisb s = (s.trisb, s)
    ∧ memRead .pclath s = (s.pclath.setWidth 8, s) ∧ memRead .trisa s = (s.trisa.setWidth 8, s)
    ∧ memRead .eecon1 s = (s.eecon1.setWidth 8, s)
    ∧ (∀ a, memRead (.gpr a) s = (s.gpr a, s))
    ∧ (∀ n, (memRead .porta s).1.getLsbD n = (decide (n < 5) && s.pinA n))
    ∧ (memRead .porta s).2 = { s with draws := s.draws + 1 }
    ∧ (∀ n, (memRead .portb s).1.getLsbD n = (decide (n < 8) && s.pinB n))
    ∧ (∀ n, (memRead .portb s).2.rbold.getLsbD n = (decide (n < 4) && s.pinB (n + 4)))
    ∧ (memRead .portb s).2 = { s with rbold := (memRead .portb s).2.rbold, draws := s.draws + 1 }

/-- R87 (with the spec's decision D3): what a write to each location does, and that it does nothing else (STATUS, EECON1, EECON2 and the cells of the general
registers have statements of their own). -/
def Obligations.MemWriteTable : Prop :=
  ∀ (v : Byte) (b : Bool) (s : State),
    memWrite .null v b s = s ∧ memWrite .unimplemented v b s = s
    ∧ memWrite .fsr v b s = { s with fsr := v } ∧ memWrite .intcon v b s = { s with intcon := v }
    ∧ memWrite .optionReg v b s = { s with optionReg := v } ∧ memWrite .trisb v b s = { s with trisb := v }
    ∧ memWrite .portb v b s = { s with latb := v } ∧ memWrite .eedata v b s = { s with eedata := v }
    ∧ memWrite .eeadr v b s = { s with eeadr := v }
    ∧ memWrite .pclath v b s = { s with pclath := v.setWidth 5 }
    ∧ memWrite .trisa v b s = { s with trisa := v.setWidth 5 }
    ∧ memWrite .porta v b s = { s with lata := v.setWidth 5 }
    ∧ memWrite .tmr0 v b s =
        { s with tmr0 := v, presc := if s.optionReg.getLsbD 3 then s.presc else 0x00#8, t0Sync := 0b00#2, t0Skip := true }

/-- A write to a general purpose register is read back there, every other register's byte reads as before, and nothing else
changes; the memory stays in canonical form. -/
def Obligations.GeneralRegisterWrite : Prop :=
  ∀ (s : State) (a : Nat) (v : Byte) (b : Bool), Memory.wf ramFill s.ram →
    (∀ n, (memWrite (.gpr a) v b s).gpr n = if n = a then v else s.gpr n)
    ∧ { memWrite (.gpr a) v b s with ram := s.ram } = s
    ∧ Memory.wf ramFill (memWrite (.gpr a) v b s).ram

/-- The frame of the eighteen instructions with a destination `f`: ADDWF, ANDWF, CLRF, COMF, DECF, DECFSZ, INCF, INCFSZ, IORWF,
MOVF, MOVWF, RLF, RRF, SUBWF, SWAPF, XORWF, BCF, BSF. Each register is unchanged unless it is the destination; the stack, the
data EEPROM, the program and the configuration are unchanged. -/
def Obligations.FileInstructionFrame : Prop :=
  ∀ (i : Instr) (f : FileAddr) (d : Dest) (s t : State), i.fileDest = some (f, d) → exec i s = .next t →
    Memory.wf ramFill s.ram →
    (∀ n, ¬(d = .f ∧ resolve f s = .gpr n) → t.gpr n = s.gpr n)
    ∧ (d ≠ .w → t.w = s.w)
    ∧ (¬(d = .f ∧ resolve f s = .fsr) → t.fsr = s.fsr)
    ∧ (¬(d = .f ∧ resolve f s = .pclath) → t.pclath = s.pclath)
    ∧ (¬(d = .f ∧ resolve f s = .intcon) → t.intcon = s.intcon)
    ∧ (¬(d = .f ∧ resolve f s = .optionReg) → t.optionReg = s.optionReg)
    ∧ (¬(d = .f ∧ resolve f s = .porta) → t.lata = s.lata)
    ∧ (¬(d = .f ∧ resolve f s = .portb) → t.latb = s.latb)
    ∧ (¬(d = .f ∧ resolve f s = .trisa) → t.trisa = s.trisa)
    ∧ (¬(d = .f ∧ resolve f s = .trisb) → t.trisb = s.trisb)
    ∧ (¬(d = .f ∧ resolve f s = .tmr0) → t.tmr0 = s.tmr0 ∧ t.presc = s.presc ∧ t.t0Sync = s.t0Sync ∧ t.t0Skip = s.t0Skip)
    ∧ (¬(d = .f ∧ resolve f s = .eeadr) → t.eeadr = s.eeadr)
    ∧ (¬(d = .f ∧ (resolve f s = .eedata ∨ resolve f s = .eecon1)) → t.eedata = s.eedata)
    ∧ (¬(d = .f ∧ resolve f s = .eecon1) → t.eecon1 = s.eecon1 ∧ t.eeBusy = s.eeBusy)
    ∧ (¬(d = .f ∧ (resolve f s = .eecon1 ∨ resolve f s = .eecon2)) → t.eeSeq = s.eeSeq)
    ∧ (resolve f s ≠ .portb → t.rbold = s.rbold)
    ∧ (¬(d = .f ∧ resolve f s = .status) → ∀ n, 3 ≤ n → t.status.getLsbD n = s.status.getLsbD n)
    ∧ t.stk = s.stk ∧ t.sp = s.sp ∧ t.eeprom = s.eeprom ∧ t.prog = s.prog ∧ t.cfg = s.cfg
    ∧ t.sleeping = s.sleeping ∧ t.wdtCnt = s.wdtCnt ∧ t.pins = s.pins ∧ t.pinQueue = s.pinQueue

/-- R92: STATUS as destination: bits 7:5 take the result, TO and PD never change, and the flags take the result only where the
instruction affects none of them; else each flag it affects comes from its logic and the others stay. So CLRF STATUS leaves
`000u u1uu`. -/
def Obligations.StatusDestination : Prop :=
  (∀ (v : Byte) (u : FlagUpdate) (s : State),
    writeFile .status ⟨v, u⟩ s = { s with status := (writeFile .status ⟨v, u⟩ s).status }
    ∧ (∀ n, 5 ≤ n → (writeFile .status ⟨v, u⟩ s).status.getLsbD n = v.getLsbD n)
    ∧ (writeFile .status ⟨v, u⟩ s).timeOut = s.timeOut ∧ (writeFile .status ⟨v, u⟩ s).powerDown = s.powerDown
    ∧ (u.isEmpty = true → ∀ n, n < 3 → (writeFile .status ⟨v, u⟩ s).status.getLsbD n = v.getLsbD n)
    ∧ (u.isEmpty = false → (writeFile .status ⟨v, u⟩ s).zero = u.z.getD s.zero
      ∧ (writeFile .status ⟨v, u⟩ s).digitCarry = u.dc.getD s.digitCarry
      ∧ (writeFile .status ⟨v, u⟩ s).carry = u.c.getD s.carry))
  ∧ ∀ (f : FileAddr) (s : State), resolve f s = .status →
    ∃ t, exec (.clrf f) s = .next t ∧ (∀ n, 5 ≤ n → t.status.getLsbD n = false) ∧ t.zero = true
      ∧ t.digitCarry = s.digitCarry ∧ t.carry = s.carry ∧ t.timeOut = s.timeOut ∧ t.powerDown = s.powerDown
      ∧ t = { s with status := t.status, pc := s.pc + 1, cycles := 1 }

/-- R95: PCL as destination: the PC takes PCLATH and the result, in two cycles, and nothing is pushed; the computed GOTO adds in
eight bits and its carry does not reach PC[12:8]; a skip instruction onto PCL is refused (the spec's decision D14). -/
def Obligations.PclDestination : Prop :=
  (∀ (v : Byte) (b : Bool) (s : State),
    (memWrite .pcl v b s).pc.toNat = s.pclath.toNat * 256 + v.toNat ∧ (memWrite .pcl v b s).cycles = 2
    ∧ { memWrite .pcl v b s with pc := s.pc, cycles := s.cycles } = s)
  ∧ (∀ (f : FileAddr) (s : State), resolve f s = .pcl →
    ∃ t, exec (.addwf f .f) s = .next t ∧ t.cycles = 2
      ∧ t.pc.toNat = s.pclath.toNat * 256 + ((s.pc.toNat + 1) % 256 + s.w.toNat) % 256
      ∧ t.carry = decide (255 < (s.pc.toNat + 1) % 256 + s.w.toNat)
      ∧ { t with pc := s.pc, cycles := s.cycles, status := s.status } = s)
  ∧ ∀ (f : FileAddr) (s : State), resolve f s = .pcl →
    exec (.decfsz f .f) s = .refused .skipOntoPcl ∧ exec (.incfsz f .f) s = .refused .skipOntoPcl

/-! ### Byte-oriented instructions -/

/-- R150: ADDWF, its word, both destinations, every operand: the sum, C the carry out of bit 7, DC out of bit 3, Z. -/
def Obligations.AddwfResult : Prop :=
  ∀ (f : FileAddr) (d : Dest) (s : State),
    decode (formatB 0b000111#6 d f) = .ok (.addwf f d)
    ∧ FileResult (.addwf f d) f d s (BitVec.ofNat 8 ((s.operand f).toNat + s.w.toNat))
      ⟨some (decide (((s.operand f).toNat + s.w.toNat) % 256 = 0)),
       some (decide (15 < (s.operand f).toNat % 16 + s.w.toNat % 16)),
       some (decide (255 < (s.operand f).toNat + s.w.toNat))⟩

/-- R149: the four instructions whose descriptions the document lost (their meaning is the spec's inference from their siblings:
R165, R167, R166, R212). SUBWF is f - W, with C = 1 for no borrow (f ≥ W) and DC = 1 for no digit borrow, also where W is 0;
XORWF and XORLW go bit by bit, Z only; SWAPF swaps the nibbles and writes no flag. -/
def Obligations.LostDescriptionResults : Prop :=
  ∀ (f : FileAddr) (d : Dest) (k : Byte) (s : State),
    FileResult (.subwf f d) f d s (BitVec.ofNat 8 ((s.operand f).toNat + 256 - s.w.toNat))
      ⟨some (decide ((s.operand f).toNat = s.w.toNat)),
       some (decide (s.w.toNat % 16 ≤ (s.operand f).toNat % 16)),
       some (decide (s.w.toNat ≤ (s.operand f).toNat))⟩
    ∧ (∃ r : Byte, (∀ n, r.getLsbD n = ((s.operand f).getLsbD n != s.w.getLsbD n))
      ∧ FileResult (.xorwf f d) f d s r ⟨some (decide (r = 0x00#8)), none, none⟩)
    ∧ FileResult (.swapf f d) f d s (BitVec.ofNat 8 ((s.operand f).toNat % 16 * 16 + (s.operand f).toNat / 16))
        ⟨none, none, none⟩
    ∧ ∃ r : Byte, (∀ n, r.getLsbD n = (s.w.getLsbD n != k.getLsbD n))
      ∧ LiteralResult (.xorlw k) s r ⟨some (decide (r = 0x00#8)), none, none⟩

/-- R151, R159, R154: ANDWF, IORWF and COMF, their words, the result bit by bit; Z only. -/
def Obligations.LogicFileResults : Prop :=
  ∀ (f : FileAddr) (d : Dest) (s : State),
    (decode (formatB 0b000101#6 d f) = .ok (.andwf f d)
      ∧ ∃ r : Byte, (∀ n, r.getLsbD n = ((s.operand f).getLsbD n && s.w.getLsbD n))
        ∧ FileResult (.andwf f d) f d s r ⟨some (decide (r = 0x00#8)), none, none⟩)
    ∧ (decode (formatB 0b000100#6 d f) = .ok (.iorwf f d)
      ∧ ∃ r : Byte, (∀ n, r.getLsbD n = ((s.operand f).getLsbD n || s.w.getLsbD n))
        ∧ FileResult (.iorwf f d) f d s r ⟨some (decide (r = 0x00#8)), none, none⟩)
    ∧ decode (formatB 0b001001#6 d f) = .ok (.comf f d)
    ∧ FileResult (.comf f d) f d s (BitVec.ofNat 8 (255 - (s.operand f).toNat))
        ⟨some (decide ((s.operand f).toNat = 255)), none, none⟩

/-- R155, R157: DECF and INCF, their words, modulo 256; Z only, C and DC stay even where the count wraps. -/
def Obligations.IncrementDecrementResults : Prop :=
  ∀ (f : FileAddr) (d : Dest) (s : State),
    decode (formatB 0b001010#6 d f) = .ok (.incf f d)
    ∧ FileResult (.incf f d) f d s (BitVec.ofNat 8 ((s.operand f).toNat + 1))
        ⟨some (decide ((s.operand f).toNat = 255)), none, none⟩
    ∧ decode (formatB 0b000011#6 d f) = .ok (.decf f d)
    ∧ FileResult (.decf f d) f d s (BitVec.ofNat 8 ((s.operand f).toNat + 255))
        ⟨some (decide ((s.operand f).toNat = 1)), none, none⟩

/-- R160, R161, R152: MOVF (Z), MOVWF (no flag) and CLRF (Z = 1), and their words; each reads the register first, and MOVF with
d = 1 writes it with its own value. -/
def Obligations.MoveAndClearResults : Prop :=
  ∀ (f : FileAddr) (d : Dest) (s : State),
    decode (formatB 0b001000#6 d f) = .ok (.movf f d) ∧ decode (formatB 0b000000#6 .f f) = .ok (.movwf f)
    ∧ decode (formatB 0b000001#6 .f f) = .ok (.clrf f)
    ∧ FileResult (.movf f d) f d s (s.operand f) ⟨some (decide ((s.operand f).toNat = 0)), none, none⟩
    ∧ FileResult (.movwf f) f .f s s.w ⟨none, none, none⟩
    ∧ FileResult (.clrf f) f .f s 0x00#8 ⟨some true, none, none⟩

/-- R163, R164: RLF and RRF, their words: they rotate nine bits, C first read and then written, Z untouched. -/
def Obligations.RotateResults : Prop :=
  ∀ (f : FileAddr) (d : Dest) (s : State),
    decode (formatB 0b001101#6 d f) = .ok (.rlf f d) ∧ decode (formatB 0b001100#6 d f) = .ok (.rrf f d)
    ∧ FileResult (.rlf f d) f d s (BitVec.ofNat 8 (2 * (s.operand f).toNat + s.carry.toNat))
        ⟨none, none, some (decide (128 ≤ (s.operand f).toNat))⟩
    ∧ FileResult (.rrf f d) f d s (BitVec.ofNat 8 ((s.operand f).toNat / 2 + 128 * s.carry.toNat))
        ⟨none, none, some (decide ((s.operand f).toNat % 2 = 1))⟩

/-- R156, R158, R148: DECFSZ and INCFSZ, their words: they store the result, write no flag, and go on two words further in two
cycles exactly if it is 0; with destination PCL the spec refuses them (R95, its decision D14). -/
def Obligations.SkipOnZeroResults : Prop :=
  ∀ (f : FileAddr) (d : Dest) (s : State),
    decode (formatB 0b001011#6 d f) = .ok (.decfsz f d) ∧ decode (formatB 0b001111#6 d f) = .ok (.incfsz f d)
    ∧ (d = .f ∧ resolve f s = .pcl →
      exec (.decfsz f d) s = .refused .skipOntoPcl ∧ exec (.incfsz f d) s = .refused .skipOntoPcl)
    ∧ (¬(d = .f ∧ resolve f s = .pcl) →
      (∃ t, exec (.decfsz f d) s = .next t
        ∧ ((s.operand f).toNat ≠ 1 → t = s.stored f d (BitVec.ofNat 8 ((s.operand f).toNat + 255)) true)
        ∧ ((s.operand f).toNat = 1 → t = { s.stored f d 0x00#8 true with pc := s.pc + 2, cycles := 2 }))
      ∧ ∃ t, exec (.incfsz f d) s = .next t
        ∧ ((s.operand f).toNat ≠ 255 → t = s.stored f d (BitVec.ofNat 8 ((s.operand f).toNat + 1)) true)
        ∧ ((s.operand f).toNat = 255 → t = { s.stored f d 0x00#8 true with pc := s.pc + 2, cycles := 2 }))

/-! ### Bit-oriented instructions -/

/-- R190, R191: BCF and BSF, their words: they change one bit of the byte read and write the whole byte back; no flag. -/
def Obligations.BitWriteResults : Prop :=
  ∀ (f : FileAddr) (b : BitNo) (s : State),
    decode (formatT 0b0100#4 b f) = .ok (.bcf f b) ∧ decode (formatT 0b0101#4 b f) = .ok (.bsf f b)
    ∧ (∃ r : Byte, (∀ n, r.getLsbD n = ((s.operand f).getLsbD n && decide (n ≠ b.toNat)))
      ∧ FileResult (.bcf f b) f .f s r ⟨none, none, none⟩)
    ∧ ∃ r : Byte, (∀ n, r.getLsbD n = ((s.operand f).getLsbD n || decide (n = b.toNat)))
      ∧ FileResult (.bsf f b) f .f s r ⟨none, none, none⟩

/-- R192, R193: BTFSC and BTFSS, their words: they read the register, write nothing, and go on two words further in two cycles
exactly if the bit is 0, or 1. -/
def Obligations.BitTestResults : Prop :=
  ∀ (f : FileAddr) (b : BitNo) (s : State),
    decode (formatT 0b0110#4 b f) = .ok (.btfsc f b) ∧ decode (formatT 0b0111#4 b f) = .ok (.btfss f b)
    ∧ ((s.operand f).getLsbD b.toNat = false →
      exec (.btfsc f b) s = .next { s.afterRead f with pc := s.pc + 2, cycles := 2 }
        ∧ exec (.btfss f b) s = .next (s.afterRead f))
    ∧ ((s.operand f).getLsbD b.toNat = true →
      exec (.btfss f b) s = .next { s.afterRead f with pc := s.pc + 2, cycles := 2 }
        ∧ exec (.btfsc f b) s = .next (s.afterRead f))

/-! ### Literal and control instructions -/

/-- R200, R211: ADDLW adds, SUBLW is k - W; C, DC and Z; each of the two has two words. That a subtraction sets C and DC for no
borrow also where W is 0 is the spec's decision D8 (assumption log entry 24). -/
def Obligations.AddSubLiteralResults : Prop :=
  ∀ (k : Byte) (s : State),
    decode (formatL 0b111110#6 k) = .ok (.addlw k) ∧ decode (formatL 0b111111#6 k) = .ok (.addlw k)
    ∧ decode (formatL 0b111100#6 k) = .ok (.sublw k) ∧ decode (formatL 0b111101#6 k) = .ok (.sublw k)
    ∧ LiteralResult (.addlw k) s (BitVec.ofNat 8 (s.w.toNat + k.toNat))
      ⟨some (decide ((s.w.toNat + k.toNat) % 256 = 0)), some (decide (15 < s.w.toNat % 16 + k.toNat % 16)),
       some (decide (255 < s.w.toNat + k.toNat))⟩
    ∧ LiteralResult (.sublw k) s (BitVec.ofNat 8 (k.toNat + 256 - s.w.toNat))
      ⟨some (decide (k.toNat = s.w.toNat)), some (decide (s.w.toNat % 16 ≤ k.toNat % 16)),
       some (decide (s.w.toNat ≤ k.toNat))⟩

/-- R201, R205: ANDLW and IORLW, their words, the result bit by bit; Z only. -/
def Obligations.LogicLiteralResults : Prop :=
  ∀ (k : Byte) (s : State),
    decode (formatL 0b111001#6 k) = .ok (.andlw k) ∧ decode (formatL 0b111000#6 k) = .ok (.iorlw k)
    ∧ (∃ r : Byte, (∀ n, r.getLsbD n = (s.w.getLsbD n && k.getLsbD n))
      ∧ LiteralResult (.andlw k) s r ⟨some (decide (r = 0x00#8)), none, none⟩)
    ∧ ∃ r : Byte, (∀ n, r.getLsbD n = (s.w.getLsbD n || k.getLsbD n))
      ∧ LiteralResult (.iorlw k) s r ⟨some (decide (r = 0x00#8)), none, none⟩

/-- R153, R206, R162: CLRW (Z = 1), MOVLW (no flag) and NOP, which changes the PC only; all their words, whatever the don't-care
bits (`f` stands for those of CLRW). -/
def Obligations.ClrwMovlwNopResults : Prop :=
  ∀ (k : Byte) (f : FileAddr) (s : State),
    decode (formatB 0b000001#6 .w f) = .ok .clrw
    ∧ (decode (formatL 0b110000#6 k) = .ok (.movlw k) ∧ decode (formatL 0b110001#6 k) = .ok (.movlw k)
      ∧ decode (formatL 0b110010#6 k) = .ok (.movlw k) ∧ decode (formatL 0b110011#6 k) = .ok (.movlw k))
    ∧ (decode 0x0000#14 = .ok .nop ∧ decode 0x0020#14 = .ok .nop ∧ decode 0x0040#14 = .ok .nop
      ∧ decode 0x0060#14 = .ok .nop)
    ∧ LiteralResult .clrw s 0x00#8 ⟨some true, none, none⟩
    ∧ LiteralResult (.movlw k) s k ⟨none, none, none⟩
    ∧ exec .nop s = .next { s with pc := s.pc + 1, cycles := 1 }

/-- R202, R204: CALL and GOTO, their words: they go to PCLATH[4:3] : k in two cycles; CALL pushes the address after it, all 13
bits, and GOTO pushes nothing. -/
def Obligations.CallAndGotoResults : Prop :=
  ∀ (k : JumpLit) (s : State),
    decode (formatJ 0b100#3 k) = .ok (.call k) ∧ decode (formatJ 0b101#3 k) = .ok (.goto k)
    ∧ (∃ t, exec (.call k) s = .next t ∧ t.pc.toNat = s.pclath.toNat / 8 * 2048 + k.toNat ∧ t.cycles = 2
      ∧ t.sp = s.sp + 1 ∧ t.stkAt s.sp = s.pc + 1 ∧ (∀ p, p ≠ s.sp → t.stkAt p = s.stkAt p)
      ∧ { t with pc := s.pc, cycles := s.cycles, sp := s.sp, stk := s.stk } = s)
    ∧ ∃ t, exec (.goto k) s = .next t ∧ t.pc.toNat = s.pclath.toNat / 8 * 2048 + k.toNat ∧ t.cycles = 2
      ∧ { t with pc := s.pc, cycles := s.cycles } = s

/-- R207 to R209: RETURN, RETLW and RETFIE, their words: they pop the stack into the PC, all 13 bits, in two cycles; RETLW loads
W, RETFIE sets GIE; no flag, no other register and no stack cell changes. -/
def Obligations.ReturnResults : Prop :=
  ∀ (k : Byte) (s : State),
    (decode 0x0008#14 = .ok .ret ∧ decode 0x0009#14 = .ok .retfie
      ∧ decode (formatL 0b110100#6 k) = .ok (.retlw k) ∧ decode (formatL 0b110101#6 k) = .ok (.retlw k)
      ∧ decode (formatL 0b110110#6 k) = .ok (.retlw k) ∧ decode (formatL 0b110111#6 k) = .ok (.retlw k))
    ∧ exec .ret s = .next { s with pc := s.stkAt (s.sp - 1), sp := s.sp - 1, cycles := 2 }
    ∧ exec (.retlw k) s = .next { s with w := k, pc := s.stkAt (s.sp - 1), sp := s.sp - 1, cycles := 2 }
    ∧ ∃ t, exec .retfie s = .next t ∧ t.intcon.getLsbD 7 = true
      ∧ (∀ n, n < 7 → t.intcon.getLsbD n = s.intcon.getLsbD n)
      ∧ t = { s with intcon := t.intcon, pc := s.stkAt (s.sp - 1), sp := s.sp - 1, cycles := 2 }

/-- R203: CLRWDT clears the Watchdog, and the prescaler only if PSA assigns it to the Watchdog; TO and PD are set
whether or not WDTE is (the spec's decision D28), the other STATUS bits stay. -/
def Obligations.ClrwdtResult : Prop :=
  decode 0x0064#14 = .ok .clrwdt ∧ ∀ s : State, ∃ t, exec .clrwdt s = .next t ∧ t.timeOut = true ∧ t.powerDown = true
    ∧ (∀ n, n ≠ 3 → n ≠ 4 → t.status.getLsbD n = s.status.getLsbD n)
    ∧ t = { s with
        wdtCnt := 0, presc := if s.optionReg.getLsbD 3 then 0x00#8 else s.presc, status := t.status, pc := s.pc + 1,
        cycles := 1 }

/-- R210, R265: SLEEP, where no enabled flag stands, clears the Watchdog, and the prescaler only for PSA = 1 (conflict C12),
leaves TO = 1 and PD = 0 whether or not WDTE is set (the spec's decision D28), and the device sleeps at the next address; where one
stands it is a NOP, whatever GIE is (the spec's decision D15). These choices are followed by assumption log entry 24. -/
def Obligations.SleepResult : Prop :=
  decode 0x0063#14 = .ok .sleep ∧ ∀ s : State,
    (s.wakePending = false → ∃ t, exec .sleep s = .next t ∧ t.timeOut = true ∧ t.powerDown = false
      ∧ (∀ n, n ≠ 3 → n ≠ 4 → t.status.getLsbD n = s.status.getLsbD n)
      ∧ t = { s with
          wdtCnt := 0, presc := if s.optionReg.getLsbD 3 then 0x00#8 else s.presc, status := t.status, pc := s.pc + 1,
          cycles := 1, sleeping := true })
    ∧ (s.wakePending = true → exec .sleep s = .next { s with pc := s.pc + 1, cycles := 1 })

/-- R214: OPTION moves W to OPTION_REG whatever RP0 is, and changes nothing else but the PC. -/
def Obligations.OptionResult : Prop :=
  decode 0x0062#14 = .ok .option
  ∧ ∀ s : State, exec .option s = .next { s with optionReg := s.w, pc := s.pc + 1, cycles := 1 }

/-- TRIS (assumption log entry 13: its meaning is general knowledge of the family, R215): where the run admits it, TRISA or TRISB
takes W and nothing else changes; where it does not, it is refused. -/
def Obligations.TrisResults : Prop :=
  decode 0x0065#14 = .ok .trisA ∧ decode 0x0066#14 = .ok .trisB ∧ ∀ s : State,
    (s.cfg.admitTris = true →
      (∃ t, exec .trisA s = .next t ∧ (∀ n, n < 5 → t.trisa.getLsbD n = s.w.getLsbD n)
        ∧ t = { s with trisa := t.trisa, pc := s.pc + 1, cycles := 1 })
      ∧ exec .trisB s = .next { s with trisb := s.w, pc := s.pc + 1, cycles := 1 })
    ∧ (s.cfg.admitTris = false →
      exec .trisA s = .refused .trisNotAdmitted ∧ exec .trisB s = .refused .trisNotAdmitted)

/-! ### Whole-machine rules -/

/-- R230: no instruction stops the machine, but for the two forms the spec refuses: every well-formed instruction answers a next
state unless it is a skip instruction that reaches PCL through INDF. -/
def Obligations.EveryInstructionCompletes : Prop :=
  ∀ (i : Instr) (s : State), i.wellFormed s.cfg.admitTris = true →
    (∀ f d, i = .decfsz f d ∨ i = .incfsz f d → ¬(d = .f ∧ resolve f s = .pcl)) → ∃ t, exec i s = .next t

/-- R32, of the instructions: TO and PD change by CLRWDT and SLEEP only, whatever is written to STATUS. -/
def Obligations.OnlyClrwdtAndSleepChangeToPd : Prop :=
  ∀ (i : Instr) (s t : State), exec i s = .next t → i ≠ .clrwdt → i ≠ .sleep →
    t.timeOut = s.timeOut ∧ t.powerDown = s.powerDown

/-- R47 (4): the stack is reached only by CALL, RETURN, RETLW and RETFIE among the instructions. -/
def Obligations.OnlyCallsAndReturnsTouchTheStack : Prop :=
  ∀ (i : Instr) (s t : State), exec i s = .next t → (∀ k, i ≠ .call k) → i ≠ .ret → (∀ k, i ≠ .retlw k) → i ≠ .retfie →
    t.stk = s.stk ∧ t.sp = s.sp

/-- R26, R100, R106, R49: a fetch reads `PROG[a mod PM_WORDS]`, 512 words on the '83 devices and 1024 on the '84 devices, so
addresses equal modulo PM_WORDS read one word; a word loaded where the PC points is what exactly those addresses read (that
`withFetchWord` stands for the host's load is assumption log entry 2); no step changes the program memory or the configuration of
the run. -/
def Obligations.ProgramMemoryNeverChanges : Prop :=
  (Device.f83.pmWords = 512 ∧ Device.cr83.pmWords = 512 ∧ Device.f84.pmWords = 1024 ∧ Device.cr84.pmWords = 1024)
  ∧ (∀ s : State, s.fetch = s.progRead s.pc
      ∧ (∀ a, s.progRead a = Memory.read progFill s.prog (a.toNat % s.cfg.device.pmWords))
      ∧ ∀ a b, a.toNat % s.cfg.device.pmWords = b.toNat % s.cfg.device.pmWords → s.progRead a = s.progRead b)
  ∧ (∀ (s : State) (w : InstrWord) (a : PAddr), Memory.wf progFill s.prog →
      (s.withFetchWord 14 w.toNat).progRead a
        = if a.toNat % s.cfg.device.pmWords = s.pc.toNat % s.cfg.device.pmWords then w else s.progRead a)
  ∧ ∀ s t : State, step s = .next t → t.prog = s.prog ∧ t.cfg = s.cfg ∧ ∀ a, t.progRead a = s.progRead a

/-- R108, R310, R317, R342, R346: no instruction by itself changes any data EEPROM cell, and in a step the only cell that can
change is the one EEWADDR selects. A step changes no cell at all unless it ends a write (EEIF is then set and no write is in
progress) or a reset cuts one short: none where a write is still in progress after it, none where no reset is requested and EEIF
reads 0 after it, and none where no write was in progress and none could start. R316 has the cell being written hold any value from
the start of the write to its end: that the array keeps that cell's old byte until then, also in the step that starts the write, is
the model's representation (assumption log entry 16; a read of that cell gives a free value, entry 25). -/
def Obligations.OnlyTheLatchedEepromCellChanges : Prop :=
  (∀ (i : Instr) (s t : State), exec i s = .next t → t.eeprom = s.eeprom)
    ∧ (∀ s t : State, s.Inv → step s = .next t → ∀ a, a ≠ t.eeWAddr.toNat % 64 → t.eeRead a = s.eeRead a)
    ∧ ∀ s t : State, step s = .next t →
      (t.eeBusy = true → t.eeprom = s.eeprom)
      ∧ (s.resetRequest = none → t.eecon1.getLsbD 4 = false → t.eeprom = s.eeprom)
      ∧ (s.eeBusy = false → (s.eeSeq ≠ .gotAA ∨ s.resetRequest ≠ none) → t.eeprom = s.eeprom)

/-! ### The stack and the interrupt -/

/-- R27, R28: after a push the value is on top and every other cell is as before; of any eight or more pushes the last eight are
held, so the ninth overwrites the first; a pop erases nothing, and nine pops return the first one's value. -/
def Obligations.StackIsCircular : Prop :=
  (∀ (s : State) (v : PAddr), (s.push v).top = v ∧ (s.push v).drop.sp = s.sp
      ∧ (∀ p, p ≠ s.sp → (s.push v).stkAt p = s.stkAt p)
      ∧ { s.push v with stk := s.stk, sp := s.sp } = s)
    ∧ (∀ (s : State) (vs : List PAddr) (k : Nat), vs.length ≤ k + 8 → k < vs.length →
        (vs.foldl State.push s).stkAt (s.sp + BitVec.ofNat 3 k) = vs.getD k 0x0000#13)
    ∧ ∀ s : State, (times State.drop 8 s).top = s.top ∧ s.drop.stk = s.stk

/-- R240: interrupt entry clears GIE, pushes the PC and goes to 0004h whatever PCLATH holds, in two cycles; nothing else is
saved or changed. -/
def Obligations.InterruptEntryEffect : Prop :=
  ∀ s : State,
    (interruptEntry s).gie = false ∧ (∀ n, n < 7 → (interruptEntry s).intcon.getLsbD n = s.intcon.getLsbD n)
    ∧ (interruptEntry s).pc = 0x0004#13 ∧ (interruptEntry s).cycles = 2 ∧ (interruptEntry s).sp = s.sp + 1
    ∧ (interruptEntry s).stkAt s.sp = s.pc
    ∧ (∀ p, p ≠ s.sp → (interruptEntry s).stkAt p = s.stkAt p)
    ∧ { interruptEntry s with intcon := s.intcon, pc := s.pc, sp := s.sp, stk := s.stk, cycles := s.cycles } = s

/-- R231 step 3, R236, R237 (the spec's decision D7): the request is GIE with a flag that stands with its enable. It is taken at
the first boundary, or, where the run puts it off by one instruction, at the next one if it still holds. -/
def Obligations.InterruptRecognition : Prop :=
  (∀ s : State, s.irqRequest = true ↔ s.intcon.getLsbD 7 = true ∧
    ((s.intcon.getLsbD 2 = true ∧ s.intcon.getLsbD 5 = true) ∨ (s.intcon.getLsbD 1 = true ∧ s.intcon.getLsbD 4 = true)
      ∨ (s.intcon.getLsbD 0 = true ∧ s.intcon.getLsbD 3 = true)
      ∨ (s.eecon1.getLsbD 4 = true ∧ s.intcon.getLsbD 6 = true)))
  ∧ ∀ s : State, s.Running → s.irqRequest = true →
    (s.irqPhase = .delayed ∨ (s.irqPhase = .fresh ∧ s.irqWaits = false) →
      step s = .next (tick 2 (interruptEntry { s with inReset := false, irqPhase := .fresh })))
    ∧ (s.irqPhase = .fresh → s.irqWaits = true → s.RunsInstruction ∧ s.phaseDuring = .delayed)
    ∧ ∀ b, s.cfg.irqExtra = some b → s.irqWaits = b

/-! ### SLEEP and the Watchdog Timer -/

/-- R263, R306, R349 (the wake-up is a step of its own: assumption log entry 18; the start-up time is the spec's option D21, taken
in entry 17; that T0PREV takes the pin's level in every unit of it is the deduced choice of entry 27, R306 gives the re-sampling on
wake-up only): a flag that stands with its enable wakes the device, whatever GIE is, and changes no register; T0PREV is re-sampled.
While start-up time is left no instruction runs: a step is one unit of `idleCycle`, in which Timer0 stands still and the Watchdog,
the EEPROM timer and the detectors go on (WatchdogPeriod, EepromWriteCompletes and InterruptPinDetectors say what they do in it).
Then one instruction runs without the interrupt check, and the request is taken after it if it still holds. -/
def Obligations.RequestWakesTheDevice : Prop :=
  (∀ s : State, s.resetRequest = none → s.pins.mclrLow = false → s.sleeping = true → s.ostLeft = 0 → s.wakePending = true →
    step s = .next { s with
      sleeping := false, irqPhase := .afterWake, ostLeft := s.cfg.ostCycles, t0Prev := s.pinA 4, inReset := false }
    ∧ (s.cfg.ostCycles = 0 → s.wdtTimeout = false → ∀ t, step s = .next t → t.RunsInstruction ∧ t.phaseDuring = .delayed))
  ∧ (∀ s : State, s.resetRequest = none → s.pins.mclrLow = false → 0 < s.ostLeft → s.sleeping = false →
    ∃ t, step s = .next t ∧ t = idleCycle { s with ostLeft := s.ostLeft - 1, inReset := false }
      ∧ t.ostLeft = s.ostLeft - 1 ∧ t.sleeping = false ∧ t.irqPhase = s.irqPhase
      ∧ t.pc = s.pc ∧ t.w = s.w ∧ t.stk = s.stk ∧ t.sp = s.sp ∧ t.ram = s.ram ∧ t.status = s.status
      ∧ t.tmr0 = s.tmr0 ∧ t.t0Sync = s.t0Sync ∧ (s.optionReg.getLsbD 3 = false → t.presc = s.presc)
      ∧ t.t0Prev = s.pinA 4)
  ∧ ∀ s : State, s.resetRequest = none → s.pins.mclrLow = false → s.ostLeft = 0 → s.sleeping = false →
    s.irqPhase = .afterWake → s.RunsInstruction ∧ s.phaseDuring = .delayed

/-- R253, R254, R262, R306, R349: a Watchdog time-out asleep wakes the device with TO cleared and no other register changed, T0PREV
re-sampled and the start-up time begun; awake it asks for a reset and changes nothing yet. That the start-up time is counted
(`ostLeft`) is the spec's option D21, taken in assumption log entry 17; the re-sampling, which R306 marks derived, is entry 27. -/
def Obligations.WatchdogTimeOut : Prop :=
  ∀ s : State,
    (s.sleeping = true → ∃ t, wdtTimeoutEvent s = t ∧ t.timeOut = false
      ∧ (∀ n, n ≠ 4 → t.status.getLsbD n = s.status.getLsbD n)
      ∧ t = { s with sleeping := false, ostLeft := s.cfg.ostCycles, t0Prev := s.pinA 4, status := t.status })
    ∧ (s.sleeping = false → wdtTimeoutEvent s = { s with wdtTimeout := true })

/-- R261, R266, R306: with no reset and no request a step asleep is one unit of `idleCycle`; a step asleep leaves W, the PC, the
stack, every register but the flags INTF and RBIF, EEIF and WR (which change only where a write ends) and TO as they were, and so
RBOLD, the sequence detector, and Timer0 with its prescaler (PSA = 0) and synchroniser; T0PREV follows its pin. Two clauses are the
model's: that T0PREV follows its pin in every unit asleep (assumption log entry 27; R306 gives the wake-up only), and that the EEPROM
is wholly as before while a write runs (entry 16's representation of a cell that by R266 and R316 holds any value then). -/
def Obligations.SleepKeepsTheRegisters : Prop :=
  ∀ s : State, s.resetRequest = none → s.pins.mclrLow = false → s.sleeping = true → s.ostLeft = 0 →
    (s.wakePending = false → step s = .next (idleCycle { s with inReset := false, irqPhase := .fresh }))
    ∧ ∀ t, step s = .next t →
    t.w = s.w ∧ t.pc = s.pc ∧ t.stk = s.stk ∧ t.sp = s.sp ∧ t.ram = s.ram ∧ t.fsr = s.fsr ∧ t.pclath = s.pclath
    ∧ t.optionReg = s.optionReg ∧ t.lata = s.lata ∧ t.trisa = s.trisa ∧ t.latb = s.latb ∧ t.trisb = s.trisb
    ∧ t.tmr0 = s.tmr0 ∧ t.t0Sync = s.t0Sync ∧ t.t0Skip = s.t0Skip ∧ t.t0Prev = s.pinA 4
    ∧ (s.optionReg.getLsbD 3 = false → t.presc = s.presc)
    ∧ t.eedata = s.eedata ∧ t.eeadr = s.eeadr ∧ t.eeSeq = s.eeSeq ∧ t.eeWAddr = s.eeWAddr ∧ t.eeWData = s.eeWData
    ∧ (∀ n, n ≠ 1 → n ≠ 4 → t.eecon1.getLsbD n = s.eecon1.getLsbD n)
    ∧ (t.eeBusy = s.eeBusy → t.eecon1 = s.eecon1 ∧ t.eeprom = s.eeprom) ∧ t.rbold = s.rbold
    ∧ (∀ n, n ≠ 0 → n ≠ 1 → t.intcon.getLsbD n = s.intcon.getLsbD n)
    ∧ (∀ n, n ≠ 4 → t.status.getLsbD n = s.status.getLsbD n)

/-- R252, R300, R261 (a), R349: with a fixed period P, a cleared Watchdog and, for PSA = 1, a cleared prescaler, the time-out comes
exactly N × P units later, N = 2^PS for PSA = 1 and N = 1 for PSA = 0: over the Watchdog alone, over the ticks of the whole machine
and, with the device's clock stopped, over its idle units. Asleep it then wakes the device with TO cleared, and STATUS stays as it
was until then. The idle units of an awake device are those of the oscillator's start-up (the spec's option D21): that a time-out in
them makes a reset due is the model's choice (assumption log entry 17, unsafe); R349 says only that the Watchdog continues there. -/
def Obligations.WatchdogPeriod : Prop :=
  ∀ (s : State) (period n : Nat), s.cfg.wdte = true → s.cfg.wdtMin = period → s.cfg.wdtMax = period → 0 < period →
    s.wdtCnt = 0 → s.wdtTimeout = false → (s.psa = true → s.presc = 0x00#8) →
    (s.sleeping = false → ∀ t, t = times wdtCycle n s ∨ t = tick n s ∨ t = times idleCycle n s →
      (n < (if s.psa then 2 ^ s.ps else 1) * period → t.wdtTimeout = false)
      ∧ (n = (if s.psa then 2 ^ s.ps else 1) * period → t.wdtTimeout = true))
    ∧ (s.sleeping = true → ∀ t, t = times idleCycle n s →
      (n < (if s.psa then 2 ^ s.ps else 1) * period → t.sleeping = true ∧ t.status = s.status)
      ∧ (n = (if s.psa then 2 ^ s.ps else 1) * period → t.sleeping = false ∧ t.timeOut = false
        ∧ ∀ k, k ≠ 4 → t.status.getLsbD k = s.status.getLsbD k))

/-- R250: with WDTE = 0 no time-out ever occurs, so no step makes a Watchdog reset due and none wakes the device but a request. -/
def Obligations.DisabledWatchdogNeverTimesOut : Prop :=
  ∀ s t : State, s.cfg.wdte = false → step s = .next t →
    (s.wdtTimeout = false → t.wdtTimeout = false)
    ∧ (s.resetRequest = none → s.sleeping = true → s.wakePending = false → s.ostLeft = 0 → t.sleeping = true)

/-! ### Resets -/

/-- R231 step 1, R341: what requests a reset, of which kind, and that it takes effect at the step boundary; while MCLR holds the
chip in reset only the environment goes on. That a power-on pulse wins over MCLR low is the model's choice (assumption log entry
20), and so is that the environment goes on in the step of a Power-on or MCLR reset and while MCLR is held, and not in the step of a
Watchdog reset (assumption log entry 21). -/
def Obligations.ResetRequests : Prop :=
  ∀ s : State,
    (s.pins.powerOn = true → step s = .next (advanceEnv (deviceReset .por s)))
    ∧ (s.pins.powerOn = false → s.pins.mclrLow = true → s.inReset = true → step s = .next (advanceEnv s))
    ∧ (s.pins.powerOn = false → s.pins.mclrLow = true → s.inReset = false → s.sleeping = true →
        step s = .next (advanceEnv (deviceReset .mclrSleep s)))
    ∧ (s.pins.powerOn = false → s.pins.mclrLow = true → s.inReset = false → s.sleeping = false → s.wdtTimeout = false →
        step s = .next (advanceEnv (deviceReset .mclrRun s)))
    ∧ (s.pins.powerOn = false → s.pins.mclrLow = false → s.sleeping = false → s.wdtTimeout = true →
        step s = .next (deviceReset .wdtRun s))
    ∧ (s.pins.powerOn = false → s.pins.mclrLow = false → (s.sleeping = true ∨ s.wdtTimeout = false) → s.resetRequest = none)

/-- R342, R343, R344 column B, R346: what an MCLR or WDT reset leaves; what the spec makes `any` is not mentioned, and the
interrupted EEPROM cell is the only one that may change. That the general purpose registers stay (`t.ram = s.ram`) is the spec's
decision D24, since R344 has no row for them (assumption log entry 24). -/
def Obligations.WarmResetTable : Prop :=
  ∀ (kind : ResetKind) (s : State), kind ≠ .por → Memory.wf eepromFill s.eeprom →
    ∃ t, deviceReset kind s = t ∧ t.pc = 0x0000#13
    ∧ (∀ n, 5 ≤ n → t.status.getLsbD n = false) ∧ (∀ n, n < 3 → t.status.getLsbD n = s.status.getLsbD n)
    ∧ (kind = .mclrRun → t.timeOut = s.timeOut ∧ t.powerDown = s.powerDown)
    ∧ (kind = .mclrSleep → t.timeOut = true ∧ t.powerDown = false)
    ∧ (kind = .wdtRun → t.timeOut = false ∧ t.powerDown = true)
    ∧ t.pclath = 0x00#5 ∧ (∀ n, 1 ≤ n → t.intcon.getLsbD n = false) ∧ t.intcon.getLsbD 0 = s.intcon.getLsbD 0
    ∧ t.optionReg = 0xFF#8 ∧ t.trisa = 0x1F#5 ∧ t.trisb = 0xFF#8
    ∧ (∀ n, n ≠ 3 → t.eecon1.getLsbD n = false) ∧ t.eecon1.getLsbD 3 = (s.eeBusy || s.eecon1.getLsbD 3)
    ∧ t.w = s.w ∧ t.tmr0 = s.tmr0 ∧ t.fsr = s.fsr ∧ t.lata = s.lata ∧ t.latb = s.latb ∧ t.eedata = s.eedata
    ∧ t.eeadr = s.eeadr ∧ t.ram = s.ram ∧ t.prog = s.prog ∧ t.cfg = s.cfg
    ∧ t.eeSeq = .idle ∧ t.eeBusy = false ∧ t.sleeping = false ∧ t.t0Skip = false ∧ t.wdtCnt = 0 ∧ t.wdtTimeout = false
    ∧ ∀ a, ¬(s.eeBusy = true ∧ a = s.eeWAddr.toNat % 64) → t.eeRead a = s.eeRead a

/-- R342, R344 column A: what a Power-on Reset leaves; the registers it makes unknown are not mentioned. -/
def Obligations.PowerOnResetTable : Prop :=
  ∀ s : State, Memory.wf eepromFill s.eeprom →
    ∃ t, deviceReset .por s = t ∧ t.pc = 0x0000#13 ∧ (∀ n, 5 ≤ n → t.status.getLsbD n = false)
    ∧ t.timeOut = true ∧ t.powerDown = true ∧ t.pclath = 0x00#5 ∧ (∀ n, 1 ≤ n → t.intcon.getLsbD n = false)
    ∧ t.optionReg = 0xFF#8 ∧ t.trisa = 0x1F#5 ∧ t.trisb = 0xFF#8 ∧ (∀ n, n ≠ 3 → t.eecon1.getLsbD n = false)
    ∧ t.eeSeq = .idle ∧ t.eeBusy = false ∧ t.sleeping = false ∧ t.t0Skip = false ∧ t.wdtCnt = 0 ∧ t.wdtTimeout = false
    ∧ t.prog = s.prog ∧ t.cfg = s.cfg
    ∧ ∀ a, ¬(s.eeBusy = true ∧ a = s.eeWAddr.toNat % 64) → t.eeRead a = s.eeRead a

/-- R344 column A, R345: the values the spec states for the state the run begins in. -/
def Obligations.ResetStateValues : Prop :=
  State.reset.pc = 0x0000#13 ∧ (∀ n, 5 ≤ n → State.reset.status.getLsbD n = false)
    ∧ State.reset.timeOut = true ∧ State.reset.powerDown = true ∧ State.reset.pclath = 0x00#5
    ∧ (∀ n, 1 ≤ n → State.reset.intcon.getLsbD n = false) ∧ State.reset.optionReg = 0xFF#8
    ∧ State.reset.trisa = 0x1F#5 ∧ State.reset.trisb = 0xFF#8 ∧ (∀ n, n ≠ 3 → State.reset.eecon1.getLsbD n = false)
    ∧ State.reset.sleeping = false ∧ State.reset.eeBusy = false ∧ State.reset.eeSeq = .idle ∧ State.reset.t0Skip = false
    ∧ State.reset.wdtCnt = 0

/-! ### Peripherals -/

/-- R303, R301, R300 (the spec's decision D17): in timer mode, after TMR0 is written with v in cycle c, TMR0 holds v through cycles
c, c + 1 and c + 2 and then counts one for every N cycles, N = 1 for PSA = 1 and N = 2^(PS + 1) for PSA = 0, modulo 256: over
Timer0 alone and over the ticks of the whole machine. With the device's clock stopped it stands still (R261, R306, R349). -/
def Obligations.Timer0CountsAfterAWrite : Prop :=
  ∀ (s : State) (v : Byte) (n : Nat),
    (s.t0cs = false → ∀ t, t = times timer0Cycle n (writeTmr0 v s) ∨ t = tick n (writeTmr0 v s) →
      t.tmr0 = BitVec.ofNat 8 (v.toNat + (n - 3) / (if s.psa then 1 else 2 ^ (s.ps + 1))))
    ∧ (times idleCycle n s).tmr0 = s.tmr0

/-- R305, R300: T0IF is set in exactly the cycles in which TMR0 goes from FFh to 00h, over Timer0 alone and over a tick of the whole
machine; Timer0 changes no other bit of INTCON and counts by one at most; with the clock stopped it does neither (R261). n + 1
ticks are n ticks and one more. -/
def Obligations.Timer0OverflowSetsT0if : Prop :=
  ∀ s : State,
    (∀ t, t = timer0Cycle s ∨ t = tick 1 s →
      t.intcon.getLsbD 2 = (s.intcon.getLsbD 2 || (decide (s.tmr0 = 0xFF#8) && decide (t.tmr0 = 0x00#8)))
      ∧ (t.tmr0 = s.tmr0 ∨ t.tmr0 = s.tmr0 + 0x01#8))
    ∧ (∀ n, n ≠ 2 → (timer0Cycle s).intcon.getLsbD n = s.intcon.getLsbD n)
    ∧ (idleCycle s).tmr0 = s.tmr0 ∧ (idleCycle s).intcon.getLsbD 2 = s.intcon.getLsbD 2
    ∧ tick 0 s = s ∧ ∀ n, tick (n + 1) s = tick 1 (tick n s)

/-- R304, R301, R300 (the spec's decision D17; the further edges `t0Edges` are U8's parameter, assumption log entry 28): in counter
mode, where e counts the edge T0SE selects on RA4/T0CKI and the further edges inside the cycle, T0PREV follows the pin, and a pulse
goes into the synchroniser for PSA = 1 exactly if an edge came, for PSA = 0 exactly if the prescaler's count, which takes the e
edges modulo 256, passes a multiple of 2^(PS + 1); TMR0 counts the pulse that went in two cycles before. Over Timer0 alone and over
a tick of the whole machine. -/
def Obligations.CounterModeCountsSelectedEdges : Prop :=
  ∀ (s : State) (e : Nat), s.t0Skip = false → s.t0cs = true →
    e = (if (if s.optionReg.getLsbD 4 then s.t0Prev && !s.pinA 4 else !s.t0Prev && s.pinA 4) then 1 else 0)
      + s.pins.t0Edges →
    (∀ t, t = timer0Cycle s ∨ t = tick 1 s →
      t.t0Prev = s.pinA 4 ∧ t.t0Sync.getLsbD 1 = s.t0Sync.getLsbD 0
      ∧ t.tmr0 = (if s.t0Sync.getLsbD 1 then s.tmr0 + 0x01#8 else s.tmr0)
      ∧ (s.psa = true → t.t0Sync.getLsbD 0 = decide (0 < e))
      ∧ (s.psa = false → t.presc.toNat = (s.presc.toNat + e) % 256
        ∧ (t.t0Sync.getLsbD 0 = true ↔
          ∃ k, s.presc.toNat < k * 2 ^ (s.ps + 1) ∧ k * 2 ^ (s.ps + 1) ≤ s.presc.toNat + e)))
    ∧ (s.psa = true → (timer0Cycle s).presc = s.presc)

/-- R279, R280, R284: the level of every pin that something drives. An output shows its latch, RA4 only a latched 0; else a driven
pin shows what drives it, and a floating PORTB input shows 1 with the pull-ups on. -/
def Obligations.PinLevels : Prop :=
  ∀ s : State,
    (∀ n, n < 4 → s.trisa.getLsbD n = false → s.pinA n = s.lata.getLsbD n)
    ∧ (∀ n, n < 5 → s.trisa.getLsbD n = true → s.pins.raDriven.getLsbD n = true → s.pinA n = s.pins.raLevel.getLsbD n)
    ∧ (s.trisa.getLsbD 4 = false → s.lata.getLsbD 4 = false → s.pinA 4 = false)
    ∧ (s.trisa.getLsbD 4 = false → s.lata.getLsbD 4 = true → s.pins.raDriven.getLsbD 4 = true →
        s.pinA 4 = s.pins.raLevel.getLsbD 4)
    ∧ (∀ n, n < 8 → s.trisb.getLsbD n = false → s.pinB n = s.latb.getLsbD n)
    ∧ (∀ n, n < 8 → s.trisb.getLsbD n = true → s.pins.rbDriven.getLsbD n = true → s.pinB n = s.pins.rbLevel.getLsbD n)
    ∧ (∀ n, n < 8 → s.trisb.getLsbD n = true → s.pins.rbDriven.getLsbD n = false → s.optionReg.getLsbD 7 = false →
        s.pinB n = true)

/-- R292, R290, R300, R261: the selected edge on RB0/INT sets INTF and nothing clears it; RBIF is set while an input of RB7:RB4
differs from the value latched at the last read of PORTB; no other bit of INTCON changes. So each detector alone, and so both in a
tick of the whole machine and in an idle unit, where INTCON[7:3] and RBOLD stay, INTPREV follows the pin, and the environment goes
on to its next sample (its queue of samples is the model's choice, assumption log entry 8). -/
def Obligations.InterruptPinDetectors : Prop :=
  ∀ s : State,
    (∀ t, t = intPinCycle s ∨ t = tick 1 s ∨ t = idleCycle s →
      (s.optionReg.getLsbD 6 = true → t.intcon.getLsbD 1 = (s.intcon.getLsbD 1 || (!s.intPrev && s.pinB 0)))
      ∧ (s.optionReg.getLsbD 6 = false → t.intcon.getLsbD 1 = (s.intcon.getLsbD 1 || (s.intPrev && !s.pinB 0)))
      ∧ t.intPrev = s.pinB 0 ∧ (∀ n, 3 ≤ n → t.intcon.getLsbD n = s.intcon.getLsbD n) ∧ t.rbold = s.rbold)
    ∧ (∀ t, t = rbChangeCycle s ∨ t = tick 1 s ∨ t = idleCycle s →
      (t.intcon.getLsbD 0 = true ↔ s.intcon.getLsbD 0 = true ∨
        ∃ n, n < 4 ∧ s.trisb.getLsbD (n + 4) = true ∧ s.pinB (n + 4) ≠ s.rbold.getLsbD n))
    ∧ (∀ n, n ≠ 1 → (intPinCycle s).intcon.getLsbD n = s.intcon.getLsbD n)
    ∧ intPinCycle s = { s with intcon := (intPinCycle s).intcon, intPrev := s.pinB 0 }
    ∧ (∀ n, n ≠ 0 → (rbChangeCycle s).intcon.getLsbD n = s.intcon.getLsbD n)
    ∧ rbChangeCycle s = { s with intcon := (rbChangeCycle s).intcon }
    ∧ ∀ t, t = tick 1 s ∨ t = idleCycle s →
      (∀ p q, s.pinQueue = p :: q → t.pins = p ∧ t.pinQueue = q)
      ∧ (s.pinQueue = [] → t.pins = { s.pins with powerOn := false } ∧ t.pinQueue = [])

/-- R312, R313, R315 (with the spec's decisions D12, D13, D22, D23, D29): a write of EECON1. EEIF, WRERR and WREN are stored, RD
and WR can only be set. RD reads the cell EEADR selects into EEDATA, where no write of that cell is in progress; WR starts a write only if it was 0, WREN was 1 before, the 55h, AAh
sequence is complete and no write is in progress; the write latches EEADR and EEDATA, and the sequence is spent in any case. -/
def Obligations.Eecon1Write : Prop :=
  ∀ (v : Byte) (b : Bool) (s : State),
    ∃ t start, memWrite .eecon1 v b s = t
    ∧ (start = true ↔ v.getLsbD 1 = true ∧ s.eecon1.getLsbD 1 = false ∧ s.eecon1.getLsbD 2 = true ∧ s.eeSeq = .gotAA
        ∧ s.eeBusy = false)
    ∧ t.eecon1.getLsbD 4 = v.getLsbD 4 ∧ t.eecon1.getLsbD 3 = v.getLsbD 3 ∧ t.eecon1.getLsbD 2 = v.getLsbD 2
    ∧ t.eecon1.getLsbD 1 = (s.eecon1.getLsbD 1 || start) ∧ t.eecon1.getLsbD 0 = s.eecon1.getLsbD 0
    ∧ (v.getLsbD 0 = false → t.eedata = s.eedata)
    ∧ (v.getLsbD 0 = true → (s.eeBusy = false ∨ s.eeadr.toNat % 64 ≠ s.eeWAddr.toNat % 64) →
        t.eedata = s.eeRead (s.eeadr.toNat % 64))
    ∧ t.eeBusy = (s.eeBusy || start) ∧ t.eeSeq = .idle ∧ t.eeadr = s.eeadr ∧ t.eeprom = s.eeprom
    ∧ (start = true → t.eeWAddr = s.eeadr ∧ t.eeWData = t.eedata ∧ t.eeTimer = 0)
    ∧ (start = false → t.eeWAddr = s.eeWAddr ∧ t.eeWData = s.eeWData ∧ t.eeTimer = s.eeTimer)

/-- R314 (the spec's decision D12): a write of EECON2 stores nothing and moves the sequence detector: 55h, then AAh; a write to
any location but EECON1 and EECON2 leaves the detector alone. -/
def Obligations.EepromUnlockSequence : Prop :=
  ∀ (v : Byte) (b : Bool) (s : State),
    memWrite .eecon2 0x55#8 b s = { s with eeSeq := .got55 }
    ∧ (s.eeSeq = .got55 → memWrite .eecon2 0xAA#8 b s = { s with eeSeq := .gotAA })
    ∧ (s.eeSeq ≠ .got55 → memWrite .eecon2 0xAA#8 b s = { s with eeSeq := .idle })
    ∧ (v ≠ 0x55#8 → v ≠ 0xAA#8 → memWrite .eecon2 v b s = { s with eeSeq := .idle })
    ∧ ∀ loc, loc ≠ .eecon1 → loc ≠ .eecon2 → (memWrite loc v b s).eeSeq = s.eeSeq

/-- R317, R300, R261 (b): with a fixed write time P, a write just started is still in progress after every n < P units of time with
the cells as they were, and at P units its cell holds its data, WR is 0 and EEIF is 1; every other cell and bit is as before: over
the write timer alone, over the ticks of the whole machine, and over idle units, asleep or in the oscillator's start-up. That the
cell being written is as it was until P is the model's representation (assumption log entry 16: by R316 it holds any value from start
to completion); that the start-up time has units is the spec's option D21 (entry 17). -/
def Obligations.EepromWriteCompletes : Prop :=
  ∀ (s : State) (period n : Nat), s.cfg.eeMin = period → s.cfg.eeMax = period → 0 < period → s.eeBusy = true →
    s.eeTimer = 0 → Memory.wf eepromFill s.eeprom →
    (n < period → times eeTimerCycle n s = { s with eeTimer := n })
    ∧ ∀ t, t = times eeTimerCycle n s ∨ t = tick n s ∨ t = times idleCycle n s →
      (n < period → t.eeBusy = true ∧ t.eeTimer = n ∧ t.eecon1 = s.eecon1 ∧ t.eeprom = s.eeprom)
      ∧ (n = period → t.eeBusy = false ∧ t.eecon1.getLsbD 1 = false ∧ t.eecon1.getLsbD 4 = true
        ∧ (∀ k, k ≠ 1 → k ≠ 4 → t.eecon1.getLsbD k = s.eecon1.getLsbD k)
        ∧ ∀ a, t.eeRead a = if a = s.eeWAddr.toNat % 64 then s.eeWData else s.eeRead a)
end

