-- ==== Sys2Proof/Laws/State.lean ====
section
/-! SUPPORT. One lemma per field for each named update of the state: the PC, the stack, the flags, a general purpose register, a
data EEPROM cell. They hold by computation, so that no proof unfolds a record update. -/

namespace Sys2Proof.Machine

variable (s : State)

/-! ### `State.sequential` -/

@[simp] theorem State.sequential_w : s.sequential.w = s.w := rfl
@[simp] theorem State.sequential_pc : s.sequential.pc = s.pc + 1 := rfl
@[simp] theorem State.sequential_stk : s.sequential.stk = s.stk := rfl
@[simp] theorem State.sequential_sp : s.sequential.sp = s.sp := rfl
@[simp] theorem State.sequential_status : s.sequential.status = s.status := rfl
@[simp] theorem State.sequential_optionReg : s.sequential.optionReg = s.optionReg := rfl
@[simp] theorem State.sequential_intcon : s.sequential.intcon = s.intcon := rfl
@[simp] theorem State.sequential_pclath : s.sequential.pclath = s.pclath := rfl
@[simp] theorem State.sequential_fsr : s.sequential.fsr = s.fsr := rfl
@[simp] theorem State.sequential_tmr0 : s.sequential.tmr0 = s.tmr0 := rfl
@[simp] theorem State.sequential_lata : s.sequential.lata = s.lata := rfl
@[simp] theorem State.sequential_trisa : s.sequential.trisa = s.trisa := rfl
@[simp] theorem State.sequential_latb : s.sequential.latb = s.latb := rfl
@[simp] theorem State.sequential_trisb : s.sequential.trisb = s.trisb := rfl
@[simp] theorem State.sequential_eecon1 : s.sequential.eecon1 = s.eecon1 := rfl
@[simp] theorem State.sequential_eedata : s.sequential.eedata = s.eedata := rfl
@[simp] theorem State.sequential_eeadr : s.sequential.eeadr = s.eeadr := rfl
@[simp] theorem State.sequential_ram : s.sequential.ram = s.ram := rfl
@[simp] theorem State.sequential_eeprom : s.sequential.eeprom = s.eeprom := rfl
@[simp] theorem State.sequential_prog : s.sequential.prog = s.prog := rfl
@[simp] theorem State.sequential_rbold : s.sequential.rbold = s.rbold := rfl
@[simp] theorem State.sequential_intPrev : s.sequential.intPrev = s.intPrev := rfl
@[simp] theorem State.sequential_t0Prev : s.sequential.t0Prev = s.t0Prev := rfl
@[simp] theorem State.sequential_presc : s.sequential.presc = s.presc := rfl
@[simp] theorem State.sequential_t0Sync : s.sequential.t0Sync = s.t0Sync := rfl
@[simp] theorem State.sequential_t0Skip : s.sequential.t0Skip = s.t0Skip := rfl
@[simp] theorem State.sequential_wdtCnt : s.sequential.wdtCnt = s.wdtCnt := rfl
@[simp] theorem State.sequential_wdtTimeout : s.sequential.wdtTimeout = s.wdtTimeout := rfl
@[simp] theorem State.sequential_eeSeq : s.sequential.eeSeq = s.eeSeq := rfl
@[simp] theorem State.sequential_eeBusy : s.sequential.eeBusy = s.eeBusy := rfl
@[simp] theorem State.sequential_eeWAddr : s.sequential.eeWAddr = s.eeWAddr := rfl
@[simp] theorem State.sequential_eeWData : s.sequential.eeWData = s.eeWData := rfl
@[simp] theorem State.sequential_eeTimer : s.sequential.eeTimer = s.eeTimer := rfl
@[simp] theorem State.sequential_sleeping : s.sequential.sleeping = s.sleeping := rfl
@[simp] theorem State.sequential_ostLeft : s.sequential.ostLeft = s.ostLeft := rfl
@[simp] theorem State.sequential_inReset : s.sequential.inReset = s.inReset := rfl
@[simp] theorem State.sequential_irqPhase : s.sequential.irqPhase = s.irqPhase := rfl
@[simp] theorem State.sequential_cycles : s.sequential.cycles = 1 := rfl
@[simp] theorem State.sequential_pins : s.sequential.pins = s.pins := rfl
@[simp] theorem State.sequential_pinQueue : s.sequential.pinQueue = s.pinQueue := rfl
@[simp] theorem State.sequential_cfg : s.sequential.cfg = s.cfg := rfl
@[simp] theorem State.sequential_draws : s.sequential.draws = s.draws := rfl

/-! ### `State.jump` -/

@[simp] theorem State.jump_w (x : PAddr) : (s.jump x).w = s.w := rfl
@[simp] theorem State.jump_pc (x : PAddr) : (s.jump x).pc = x := rfl
@[simp] theorem State.jump_stk (x : PAddr) : (s.jump x).stk = s.stk := rfl
@[simp] theorem State.jump_sp (x : PAddr) : (s.jump x).sp = s.sp := rfl
@[simp] theorem State.jump_status (x : PAddr) : (s.jump x).status = s.status := rfl
@[simp] theorem State.jump_optionReg (x : PAddr) : (s.jump x).optionReg = s.optionReg := rfl
@[simp] theorem State.jump_intcon (x : PAddr) : (s.jump x).intcon = s.intcon := rfl
@[simp] theorem State.jump_pclath (x : PAddr) : (s.jump x).pclath = s.pclath := rfl
@[simp] theorem State.jump_fsr (x : PAddr) : (s.jump x).fsr = s.fsr := rfl
@[simp] theorem State.jump_tmr0 (x : PAddr) : (s.jump x).tmr0 = s.tmr0 := rfl
@[simp] theorem State.jump_lata (x : PAddr) : (s.jump x).lata = s.lata := rfl
@[simp] theorem State.jump_trisa (x : PAddr) : (s.jump x).trisa = s.trisa := rfl
@[simp] theorem State.jump_latb (x : PAddr) : (s.jump x).latb = s.latb := rfl
@[simp] theorem State.jump_trisb (x : PAddr) : (s.jump x).trisb = s.trisb := rfl
@[simp] theorem State.jump_eecon1 (x : PAddr) : (s.jump x).eecon1 = s.eecon1 := rfl
@[simp] theorem State.jump_eedata (x : PAddr) : (s.jump x).eedata = s.eedata := rfl
@[simp] theorem State.jump_eeadr (x : PAddr) : (s.jump x).eeadr = s.eeadr := rfl
@[simp] theorem State.jump_ram (x : PAddr) : (s.jump x).ram = s.ram := rfl
@[simp] theorem State.jump_eeprom (x : PAddr) : (s.jump x).eeprom = s.eeprom := rfl
@[simp] theorem State.jump_prog (x : PAddr) : (s.jump x).prog = s.prog := rfl
@[simp] theorem State.jump_rbold (x : PAddr) : (s.jump x).rbold = s.rbold := rfl
@[simp] theorem State.jump_intPrev (x : PAddr) : (s.jump x).intPrev = s.intPrev := rfl
@[simp] theorem State.jump_t0Prev (x : PAddr) : (s.jump x).t0Prev = s.t0Prev := rfl
@[simp] theorem State.jump_presc (x : PAddr) : (s.jump x).presc = s.presc := rfl
@[simp] theorem State.jump_t0Sync (x : PAddr) : (s.jump x).t0Sync = s.t0Sync := rfl
@[simp] theorem State.jump_t0Skip (x : PAddr) : (s.jump x).t0Skip = s.t0Skip := rfl
@[simp] theorem State.jump_wdtCnt (x : PAddr) : (s.jump x).wdtCnt = s.wdtCnt := rfl
@[simp] theorem State.jump_wdtTimeout (x : PAddr) : (s.jump x).wdtTimeout = s.wdtTimeout := rfl
@[simp] theorem State.jump_eeSeq (x : PAddr) : (s.jump x).eeSeq = s.eeSeq := rfl
@[simp] theorem State.jump_eeBusy (x : PAddr) : (s.jump x).eeBusy = s.eeBusy := rfl
@[simp] theorem State.jump_eeWAddr (x : PAddr) : (s.jump x).eeWAddr = s.eeWAddr := rfl
@[simp] theorem State.jump_eeWData (x : PAddr) : (s.jump x).eeWData = s.eeWData := rfl
@[simp] theorem State.jump_eeTimer (x : PAddr) : (s.jump x).eeTimer = s.eeTimer := rfl
@[simp] theorem State.jump_sleeping (x : PAddr) : (s.jump x).sleeping = s.sleeping := rfl
@[simp] theorem State.jump_ostLeft (x : PAddr) : (s.jump x).ostLeft = s.ostLeft := rfl
@[simp] theorem State.jump_inReset (x : PAddr) : (s.jump x).inReset = s.inReset := rfl
@[simp] theorem State.jump_irqPhase (x : PAddr) : (s.jump x).irqPhase = s.irqPhase := rfl
@[simp] theorem State.jump_cycles (x : PAddr) : (s.jump x).cycles = 2 := rfl
@[simp] theorem State.jump_pins (x : PAddr) : (s.jump x).pins = s.pins := rfl
@[simp] theorem State.jump_pinQueue (x : PAddr) : (s.jump x).pinQueue = s.pinQueue := rfl
@[simp] theorem State.jump_cfg (x : PAddr) : (s.jump x).cfg = s.cfg := rfl
@[simp] theorem State.jump_draws (x : PAddr) : (s.jump x).draws = s.draws := rfl

/-! ### `State.push` -/

@[simp] theorem State.push_w (x : PAddr) : (s.push x).w = s.w := rfl
@[simp] theorem State.push_pc (x : PAddr) : (s.push x).pc = s.pc := rfl
@[simp] theorem State.push_stk (x : PAddr) : (s.push x).stk = s.stk.set s.sp.toNat x s.sp.isLt := rfl
@[simp] theorem State.push_sp (x : PAddr) : (s.push x).sp = s.sp + 1 := rfl
@[simp] theorem State.push_status (x : PAddr) : (s.push x).status = s.status := rfl
@[simp] theorem State.push_optionReg (x : PAddr) : (s.push x).optionReg = s.optionReg := rfl
@[simp] theorem State.push_intcon (x : PAddr) : (s.push x).intcon = s.intcon := rfl
@[simp] theorem State.push_pclath (x : PAddr) : (s.push x).pclath = s.pclath := rfl
@[simp] theorem State.push_fsr (x : PAddr) : (s.push x).fsr = s.fsr := rfl
@[simp] theorem State.push_tmr0 (x : PAddr) : (s.push x).tmr0 = s.tmr0 := rfl
@[simp] theorem State.push_lata (x : PAddr) : (s.push x).lata = s.lata := rfl
@[simp] theorem State.push_trisa (x : PAddr) : (s.push x).trisa = s.trisa := rfl
@[simp] theorem State.push_latb (x : PAddr) : (s.push x).latb = s.latb := rfl
@[simp] theorem State.push_trisb (x : PAddr) : (s.push x).trisb = s.trisb := rfl
@[simp] theorem State.push_eecon1 (x : PAddr) : (s.push x).eecon1 = s.eecon1 := rfl
@[simp] theorem State.push_eedata (x : PAddr) : (s.push x).eedata = s.eedata := rfl
@[simp] theorem State.push_eeadr (x : PAddr) : (s.push x).eeadr = s.eeadr := rfl
@[simp] theorem State.push_ram (x : PAddr) : (s.push x).ram = s.ram := rfl
@[simp] theorem State.push_eeprom (x : PAddr) : (s.push x).eeprom = s.eeprom := rfl
@[simp] theorem State.push_prog (x : PAddr) : (s.push x).prog = s.prog := rfl
@[simp] theorem State.push_rbold (x : PAddr) : (s.push x).rbold = s.rbold := rfl
@[simp] theorem State.push_intPrev (x : PAddr) : (s.push x).intPrev = s.intPrev := rfl
@[simp] theorem State.push_t0Prev (x : PAddr) : (s.push x).t0Prev = s.t0Prev := rfl
@[simp] theorem State.push_presc (x : PAddr) : (s.push x).presc = s.presc := rfl
@[simp] theorem State.push_t0Sync (x : PAddr) : (s.push x).t0Sync = s.t0Sync := rfl
@[simp] theorem State.push_t0Skip (x : PAddr) : (s.push x).t0Skip = s.t0Skip := rfl
@[simp] theorem State.push_wdtCnt (x : PAddr) : (s.push x).wdtCnt = s.wdtCnt := rfl
@[simp] theorem State.push_wdtTimeout (x : PAddr) : (s.push x).wdtTimeout = s.wdtTimeout := rfl
@[simp] theorem State.push_eeSeq (x : PAddr) : (s.push x).eeSeq = s.eeSeq := rfl
@[simp] theorem State.push_eeBusy (x : PAddr) : (s.push x).eeBusy = s.eeBusy := rfl
@[simp] theorem State.push_eeWAddr (x : PAddr) : (s.push x).eeWAddr = s.eeWAddr := rfl
@[simp] theorem State.push_eeWData (x : PAddr) : (s.push x).eeWData = s.eeWData := rfl
@[simp] theorem State.push_eeTimer (x : PAddr) : (s.push x).eeTimer = s.eeTimer := rfl
@[simp] theorem State.push_sleeping (x : PAddr) : (s.push x).sleeping = s.sleeping := rfl
@[simp] theorem State.push_ostLeft (x : PAddr) : (s.push x).ostLeft = s.ostLeft := rfl
@[simp] theorem State.push_inReset (x : PAddr) : (s.push x).inReset = s.inReset := rfl
@[simp] theorem State.push_irqPhase (x : PAddr) : (s.push x).irqPhase = s.irqPhase := rfl
@[simp] theorem State.push_cycles (x : PAddr) : (s.push x).cycles = s.cycles := rfl
@[simp] theorem State.push_pins (x : PAddr) : (s.push x).pins = s.pins := rfl
@[simp] theorem State.push_pinQueue (x : PAddr) : (s.push x).pinQueue = s.pinQueue := rfl
@[simp] theorem State.push_cfg (x : PAddr) : (s.push x).cfg = s.cfg := rfl
@[simp] theorem State.push_draws (x : PAddr) : (s.push x).draws = s.draws := rfl

/-! ### `State.drop` -/

@[simp] theorem State.drop_w : s.drop.w = s.w := rfl
@[simp] theorem State.drop_pc : s.drop.pc = s.pc := rfl
@[simp] theorem State.drop_stk : s.drop.stk = s.stk := rfl
@[simp] theorem State.drop_sp : s.drop.sp = s.sp - 1 := rfl
@[simp] theorem State.drop_status : s.drop.status = s.status := rfl
@[simp] theorem State.drop_optionReg : s.drop.optionReg = s.optionReg := rfl
@[simp] theorem State.drop_intcon : s.drop.intcon = s.intcon := rfl
@[simp] theorem State.drop_pclath : s.drop.pclath = s.pclath := rfl
@[simp] theorem State.drop_fsr : s.drop.fsr = s.fsr := rfl
@[simp] theorem State.drop_tmr0 : s.drop.tmr0 = s.tmr0 := rfl
@[simp] theorem State.drop_lata : s.drop.lata = s.lata := rfl
@[simp] theorem State.drop_trisa : s.drop.trisa = s.trisa := rfl
@[simp] theorem State.drop_latb : s.drop.latb = s.latb := rfl
@[simp] theorem State.drop_trisb : s.drop.trisb = s.trisb := rfl
@[simp] theorem State.drop_eecon1 : s.drop.eecon1 = s.eecon1 := rfl
@[simp] theorem State.drop_eedata : s.drop.eedata = s.eedata := rfl
@[simp] theorem State.drop_eeadr : s.drop.eeadr = s.eeadr := rfl
@[simp] theorem State.drop_ram : s.drop.ram = s.ram := rfl
@[simp] theorem State.drop_eeprom : s.drop.eeprom = s.eeprom := rfl
@[simp] theorem State.drop_prog : s.drop.prog = s.prog := rfl
@[simp] theorem State.drop_rbold : s.drop.rbold = s.rbold := rfl
@[simp] theorem State.drop_intPrev : s.drop.intPrev = s.intPrev := rfl
@[simp] theorem State.drop_t0Prev : s.drop.t0Prev = s.t0Prev := rfl
@[simp] theorem State.drop_presc : s.drop.presc = s.presc := rfl
@[simp] theorem State.drop_t0Sync : s.drop.t0Sync = s.t0Sync := rfl
@[simp] theorem State.drop_t0Skip : s.drop.t0Skip = s.t0Skip := rfl
@[simp] theorem State.drop_wdtCnt : s.drop.wdtCnt = s.wdtCnt := rfl
@[simp] theorem State.drop_wdtTimeout : s.drop.wdtTimeout = s.wdtTimeout := rfl
@[simp] theorem State.drop_eeSeq : s.drop.eeSeq = s.eeSeq := rfl
@[simp] theorem State.drop_eeBusy : s.drop.eeBusy = s.eeBusy := rfl
@[simp] theorem State.drop_eeWAddr : s.drop.eeWAddr = s.eeWAddr := rfl
@[simp] theorem State.drop_eeWData : s.drop.eeWData = s.eeWData := rfl
@[simp] theorem State.drop_eeTimer : s.drop.eeTimer = s.eeTimer := rfl
@[simp] theorem State.drop_sleeping : s.drop.sleeping = s.sleeping := rfl
@[simp] theorem State.drop_ostLeft : s.drop.ostLeft = s.ostLeft := rfl
@[simp] theorem State.drop_inReset : s.drop.inReset = s.inReset := rfl
@[simp] theorem State.drop_irqPhase : s.drop.irqPhase = s.irqPhase := rfl
@[simp] theorem State.drop_cycles : s.drop.cycles = s.cycles := rfl
@[simp] theorem State.drop_pins : s.drop.pins = s.pins := rfl
@[simp] theorem State.drop_pinQueue : s.drop.pinQueue = s.pinQueue := rfl
@[simp] theorem State.drop_cfg : s.drop.cfg = s.cfg := rfl
@[simp] theorem State.drop_draws : s.drop.draws = s.draws := rfl

/-! ### `State.setFlags` -/

@[simp] theorem State.setFlags_w (u : FlagUpdate) : (s.setFlags u).w = s.w := rfl
@[simp] theorem State.setFlags_pc (u : FlagUpdate) : (s.setFlags u).pc = s.pc := rfl
@[simp] theorem State.setFlags_stk (u : FlagUpdate) : (s.setFlags u).stk = s.stk := rfl
@[simp] theorem State.setFlags_sp (u : FlagUpdate) : (s.setFlags u).sp = s.sp := rfl
@[simp] theorem State.setFlags_status (u : FlagUpdate) : (s.setFlags u).status = u.apply s.status := rfl
@[simp] theorem State.setFlags_optionReg (u : FlagUpdate) : (s.setFlags u).optionReg = s.optionReg := rfl
@[simp] theorem State.setFlags_intcon (u : FlagUpdate) : (s.setFlags u).intcon = s.intcon := rfl
@[simp] theorem State.setFlags_pclath (u : FlagUpdate) : (s.setFlags u).pclath = s.pclath := rfl
@[simp] theorem State.setFlags_fsr (u : FlagUpdate) : (s.setFlags u).fsr = s.fsr := rfl
@[simp] theorem State.setFlags_tmr0 (u : FlagUpdate) : (s.setFlags u).tmr0 = s.tmr0 := rfl
@[simp] theorem State.setFlags_lata (u : FlagUpdate) : (s.setFlags u).lata = s.lata := rfl
@[simp] theorem State.setFlags_trisa (u : FlagUpdate) : (s.setFlags u).trisa = s.trisa := rfl
@[simp] theorem State.setFlags_latb (u : FlagUpdate) : (s.setFlags u).latb = s.latb := rfl
@[simp] theorem State.setFlags_trisb (u : FlagUpdate) : (s.setFlags u).trisb = s.trisb := rfl
@[simp] theorem State.setFlags_eecon1 (u : FlagUpdate) : (s.setFlags u).eecon1 = s.eecon1 := rfl
@[simp] theorem State.setFlags_eedata (u : FlagUpdate) : (s.setFlags u).eedata = s.eedata := rfl
@[simp] theorem State.setFlags_eeadr (u : FlagUpdate) : (s.setFlags u).eeadr = s.eeadr := rfl
@[simp] theorem State.setFlags_ram (u : FlagUpdate) : (s.setFlags u).ram = s.ram := rfl
@[simp] theorem State.setFlags_eeprom (u : FlagUpdate) : (s.setFlags u).eeprom = s.eeprom := rfl
@[simp] theorem State.setFlags_prog (u : FlagUpdate) : (s.setFlags u).prog = s.prog := rfl
@[simp] theorem State.setFlags_rbold (u : FlagUpdate) : (s.setFlags u).rbold = s.rbold := rfl
@[simp] theorem State.setFlags_intPrev (u : FlagUpdate) : (s.setFlags u).intPrev = s.intPrev := rfl
@[simp] theorem State.setFlags_t0Prev (u : FlagUpdate) : (s.setFlags u).t0Prev = s.t0Prev := rfl
@[simp] theorem State.setFlags_presc (u : FlagUpdate) : (s.setFlags u).presc = s.presc := rfl
@[simp] theorem State.setFlags_t0Sync (u : FlagUpdate) : (s.setFlags u).t0Sync = s.t0Sync := rfl
@[simp] theorem State.setFlags_t0Skip (u : FlagUpdate) : (s.setFlags u).t0Skip = s.t0Skip := rfl
@[simp] theorem State.setFlags_wdtCnt (u : FlagUpdate) : (s.setFlags u).wdtCnt = s.wdtCnt := rfl
@[simp] theorem State.setFlags_wdtTimeout (u : FlagUpdate) : (s.setFlags u).wdtTimeout = s.wdtTimeout := rfl
@[simp] theorem State.setFlags_eeSeq (u : FlagUpdate) : (s.setFlags u).eeSeq = s.eeSeq := rfl
@[simp] theorem State.setFlags_eeBusy (u : FlagUpdate) : (s.setFlags u).eeBusy = s.eeBusy := rfl
@[simp] theorem State.setFlags_eeWAddr (u : FlagUpdate) : (s.setFlags u).eeWAddr = s.eeWAddr := rfl
@[simp] theorem State.setFlags_eeWData (u : FlagUpdate) : (s.setFlags u).eeWData = s.eeWData := rfl
@[simp] theorem State.setFlags_eeTimer (u : FlagUpdate) : (s.setFlags u).eeTimer = s.eeTimer := rfl
@[simp] theorem State.setFlags_sleeping (u : FlagUpdate) : (s.setFlags u).sleeping = s.sleeping := rfl
@[simp] theorem State.setFlags_ostLeft (u : FlagUpdate) : (s.setFlags u).ostLeft = s.ostLeft := rfl
@[simp] theorem State.setFlags_inReset (u : FlagUpdate) : (s.setFlags u).inReset = s.inReset := rfl
@[simp] theorem State.setFlags_irqPhase (u : FlagUpdate) : (s.setFlags u).irqPhase = s.irqPhase := rfl
@[simp] theorem State.setFlags_cycles (u : FlagUpdate) : (s.setFlags u).cycles = s.cycles := rfl
@[simp] theorem State.setFlags_pins (u : FlagUpdate) : (s.setFlags u).pins = s.pins := rfl
@[simp] theorem State.setFlags_pinQueue (u : FlagUpdate) : (s.setFlags u).pinQueue = s.pinQueue := rfl
@[simp] theorem State.setFlags_cfg (u : FlagUpdate) : (s.setFlags u).cfg = s.cfg := rfl
@[simp] theorem State.setFlags_draws (u : FlagUpdate) : (s.setFlags u).draws = s.draws := rfl

/-! ### `State.setGpr` -/

@[simp] theorem State.setGpr_w (a : Nat) (v : Byte) : (s.setGpr a v).w = s.w := rfl
@[simp] theorem State.setGpr_pc (a : Nat) (v : Byte) : (s.setGpr a v).pc = s.pc := rfl
@[simp] theorem State.setGpr_stk (a : Nat) (v : Byte) : (s.setGpr a v).stk = s.stk := rfl
@[simp] theorem State.setGpr_sp (a : Nat) (v : Byte) : (s.setGpr a v).sp = s.sp := rfl
@[simp] theorem State.setGpr_status (a : Nat) (v : Byte) : (s.setGpr a v).status = s.status := rfl
@[simp] theorem State.setGpr_optionReg (a : Nat) (v : Byte) : (s.setGpr a v).optionReg = s.optionReg := rfl
@[simp] theorem State.setGpr_intcon (a : Nat) (v : Byte) : (s.setGpr a v).intcon = s.intcon := rfl
@[simp] theorem State.setGpr_pclath (a : Nat) (v : Byte) : (s.setGpr a v).pclath = s.pclath := rfl
@[simp] theorem State.setGpr_fsr (a : Nat) (v : Byte) : (s.setGpr a v).fsr = s.fsr := rfl
@[simp] theorem State.setGpr_tmr0 (a : Nat) (v : Byte) : (s.setGpr a v).tmr0 = s.tmr0 := rfl
@[simp] theorem State.setGpr_lata (a : Nat) (v : Byte) : (s.setGpr a v).lata = s.lata := rfl
@[simp] theorem State.setGpr_trisa (a : Nat) (v : Byte) : (s.setGpr a v).trisa = s.trisa := rfl
@[simp] theorem State.setGpr_latb (a : Nat) (v : Byte) : (s.setGpr a v).latb = s.latb := rfl
@[simp] theorem State.setGpr_trisb (a : Nat) (v : Byte) : (s.setGpr a v).trisb = s.trisb := rfl
@[simp] theorem State.setGpr_eecon1 (a : Nat) (v : Byte) : (s.setGpr a v).eecon1 = s.eecon1 := rfl
@[simp] theorem State.setGpr_eedata (a : Nat) (v : Byte) : (s.setGpr a v).eedata = s.eedata := rfl
@[simp] theorem State.setGpr_eeadr (a : Nat) (v : Byte) : (s.setGpr a v).eeadr = s.eeadr := rfl
@[simp] theorem State.setGpr_ram (a : Nat) (v : Byte) : (s.setGpr a v).ram = Memory.write ramFill s.ram a v := rfl
@[simp] theorem State.setGpr_eeprom (a : Nat) (v : Byte) : (s.setGpr a v).eeprom = s.eeprom := rfl
@[simp] theorem State.setGpr_prog (a : Nat) (v : Byte) : (s.setGpr a v).prog = s.prog := rfl
@[simp] theorem State.setGpr_rbold (a : Nat) (v : Byte) : (s.setGpr a v).rbold = s.rbold := rfl
@[simp] theorem State.setGpr_intPrev (a : Nat) (v : Byte) : (s.setGpr a v).intPrev = s.intPrev := rfl
@[simp] theorem State.setGpr_t0Prev (a : Nat) (v : Byte) : (s.setGpr a v).t0Prev = s.t0Prev := rfl
@[simp] theorem State.setGpr_presc (a : Nat) (v : Byte) : (s.setGpr a v).presc = s.presc := rfl
@[simp] theorem State.setGpr_t0Sync (a : Nat) (v : Byte) : (s.setGpr a v).t0Sync = s.t0Sync := rfl
@[simp] theorem State.setGpr_t0Skip (a : Nat) (v : Byte) : (s.setGpr a v).t0Skip = s.t0Skip := rfl
@[simp] theorem State.setGpr_wdtCnt (a : Nat) (v : Byte) : (s.setGpr a v).wdtCnt = s.wdtCnt := rfl
@[simp] theorem State.setGpr_wdtTimeout (a : Nat) (v : Byte) : (s.setGpr a v).wdtTimeout = s.wdtTimeout := rfl
@[simp] theorem State.setGpr_eeSeq (a : Nat) (v : Byte) : (s.setGpr a v).eeSeq = s.eeSeq := rfl
@[simp] theorem State.setGpr_eeBusy (a : Nat) (v : Byte) : (s.setGpr a v).eeBusy = s.eeBusy := rfl
@[simp] theorem State.setGpr_eeWAddr (a : Nat) (v : Byte) : (s.setGpr a v).eeWAddr = s.eeWAddr := rfl
@[simp] theorem State.setGpr_eeWData (a : Nat) (v : Byte) : (s.setGpr a v).eeWData = s.eeWData := rfl
@[simp] theorem State.setGpr_eeTimer (a : Nat) (v : Byte) : (s.setGpr a v).eeTimer = s.eeTimer := rfl
@[simp] theorem State.setGpr_sleeping (a : Nat) (v : Byte) : (s.setGpr a v).sleeping = s.sleeping := rfl
@[simp] theorem State.setGpr_ostLeft (a : Nat) (v : Byte) : (s.setGpr a v).ostLeft = s.ostLeft := rfl
@[simp] theorem State.setGpr_inReset (a : Nat) (v : Byte) : (s.setGpr a v).inReset = s.inReset := rfl
@[simp] theorem State.setGpr_irqPhase (a : Nat) (v : Byte) : (s.setGpr a v).irqPhase = s.irqPhase := rfl
@[simp] theorem State.setGpr_cycles (a : Nat) (v : Byte) : (s.setGpr a v).cycles = s.cycles := rfl
@[simp] theorem State.setGpr_pins (a : Nat) (v : Byte) : (s.setGpr a v).pins = s.pins := rfl
@[simp] theorem State.setGpr_pinQueue (a : Nat) (v : Byte) : (s.setGpr a v).pinQueue = s.pinQueue := rfl
@[simp] theorem State.setGpr_cfg (a : Nat) (v : Byte) : (s.setGpr a v).cfg = s.cfg := rfl
@[simp] theorem State.setGpr_draws (a : Nat) (v : Byte) : (s.setGpr a v).draws = s.draws := rfl

/-! ### `State.setEe` -/

@[simp] theorem State.setEe_w (a : Nat) (v : Byte) : (s.setEe a v).w = s.w := rfl
@[simp] theorem State.setEe_pc (a : Nat) (v : Byte) : (s.setEe a v).pc = s.pc := rfl
@[simp] theorem State.setEe_stk (a : Nat) (v : Byte) : (s.setEe a v).stk = s.stk := rfl
@[simp] theorem State.setEe_sp (a : Nat) (v : Byte) : (s.setEe a v).sp = s.sp := rfl
@[simp] theorem State.setEe_status (a : Nat) (v : Byte) : (s.setEe a v).status = s.status := rfl
@[simp] theorem State.setEe_optionReg (a : Nat) (v : Byte) : (s.setEe a v).optionReg = s.optionReg := rfl
@[simp] theorem State.setEe_intcon (a : Nat) (v : Byte) : (s.setEe a v).intcon = s.intcon := rfl
@[simp] theorem State.setEe_pclath (a : Nat) (v : Byte) : (s.setEe a v).pclath = s.pclath := rfl
@[simp] theorem State.setEe_fsr (a : Nat) (v : Byte) : (s.setEe a v).fsr = s.fsr := rfl
@[simp] theorem State.setEe_tmr0 (a : Nat) (v : Byte) : (s.setEe a v).tmr0 = s.tmr0 := rfl
@[simp] theorem State.setEe_lata (a : Nat) (v : Byte) : (s.setEe a v).lata = s.lata := rfl
@[simp] theorem State.setEe_trisa (a : Nat) (v : Byte) : (s.setEe a v).trisa = s.trisa := rfl
@[simp] theorem State.setEe_latb (a : Nat) (v : Byte) : (s.setEe a v).latb = s.latb := rfl
@[simp] theorem State.setEe_trisb (a : Nat) (v : Byte) : (s.setEe a v).trisb = s.trisb := rfl
@[simp] theorem State.setEe_eecon1 (a : Nat) (v : Byte) : (s.setEe a v).eecon1 = s.eecon1 := rfl
@[simp] theorem State.setEe_eedata (a : Nat) (v : Byte) : (s.setEe a v).eedata = s.eedata := rfl
@[simp] theorem State.setEe_eeadr (a : Nat) (v : Byte) : (s.setEe a v).eeadr = s.eeadr := rfl
@[simp] theorem State.setEe_ram (a : Nat) (v : Byte) : (s.setEe a v).ram = s.ram := rfl
@[simp] theorem State.setEe_eeprom (a : Nat) (v : Byte) : (s.setEe a v).eeprom = Memory.write eepromFill s.eeprom a v := rfl
@[simp] theorem State.setEe_prog (a : Nat) (v : Byte) : (s.setEe a v).prog = s.prog := rfl
@[simp] theorem State.setEe_rbold (a : Nat) (v : Byte) : (s.setEe a v).rbold = s.rbold := rfl
@[simp] theorem State.setEe_intPrev (a : Nat) (v : Byte) : (s.setEe a v).intPrev = s.intPrev := rfl
@[simp] theorem State.setEe_t0Prev (a : Nat) (v : Byte) : (s.setEe a v).t0Prev = s.t0Prev := rfl
@[simp] theorem State.setEe_presc (a : Nat) (v : Byte) : (s.setEe a v).presc = s.presc := rfl
@[simp] theorem State.setEe_t0Sync (a : Nat) (v : Byte) : (s.setEe a v).t0Sync = s.t0Sync := rfl
@[simp] theorem State.setEe_t0Skip (a : Nat) (v : Byte) : (s.setEe a v).t0Skip = s.t0Skip := rfl
@[simp] theorem State.setEe_wdtCnt (a : Nat) (v : Byte) : (s.setEe a v).wdtCnt = s.wdtCnt := rfl
@[simp] theorem State.setEe_wdtTimeout (a : Nat) (v : Byte) : (s.setEe a v).wdtTimeout = s.wdtTimeout := rfl
@[simp] theorem State.setEe_eeSeq (a : Nat) (v : Byte) : (s.setEe a v).eeSeq = s.eeSeq := rfl
@[simp] theorem State.setEe_eeBusy (a : Nat) (v : Byte) : (s.setEe a v).eeBusy = s.eeBusy := rfl
@[simp] theorem State.setEe_eeWAddr (a : Nat) (v : Byte) : (s.setEe a v).eeWAddr = s.eeWAddr := rfl
@[simp] theorem State.setEe_eeWData (a : Nat) (v : Byte) : (s.setEe a v).eeWData = s.eeWData := rfl
@[simp] theorem State.setEe_eeTimer (a : Nat) (v : Byte) : (s.setEe a v).eeTimer = s.eeTimer := rfl
@[simp] theorem State.setEe_sleeping (a : Nat) (v : Byte) : (s.setEe a v).sleeping = s.sleeping := rfl
@[simp] theorem State.setEe_ostLeft (a : Nat) (v : Byte) : (s.setEe a v).ostLeft = s.ostLeft := rfl
@[simp] theorem State.setEe_inReset (a : Nat) (v : Byte) : (s.setEe a v).inReset = s.inReset := rfl
@[simp] theorem State.setEe_irqPhase (a : Nat) (v : Byte) : (s.setEe a v).irqPhase = s.irqPhase := rfl
@[simp] theorem State.setEe_cycles (a : Nat) (v : Byte) : (s.setEe a v).cycles = s.cycles := rfl
@[simp] theorem State.setEe_pins (a : Nat) (v : Byte) : (s.setEe a v).pins = s.pins := rfl
@[simp] theorem State.setEe_pinQueue (a : Nat) (v : Byte) : (s.setEe a v).pinQueue = s.pinQueue := rfl
@[simp] theorem State.setEe_cfg (a : Nat) (v : Byte) : (s.setEe a v).cfg = s.cfg := rfl
@[simp] theorem State.setEe_draws (a : Nat) (v : Byte) : (s.setEe a v).draws = s.draws := rfl

end Sys2Proof.Machine
end

