-- ==== Sys2Proof/Laws/Flags.lean ====
section
/-! SUPPORT. STATUS bit by bit after each operation that writes it, and the results of the arithmetic as numbers. -/

namespace Sys2Proof.Machine

/-! ### STATUS and INTCON, bit by bit -/

theorem FlagUpdate.apply_getLsbD (u : FlagUpdate) (st : Byte) (n : Nat) :
    (u.apply st).getLsbD n =
      if n = 0 then u.c.getD (st.getLsbD 0) else if n = 1 then u.dc.getD (st.getLsbD 1)
      else if n = 2 then u.z.getD (st.getLsbD 2) else st.getLsbD n := by
  show (@BitVec.getLsbD (5 + 1 + 1 + 1) (_ ++ _) n) = _
  simp only [BitVec.getLsbD_append, BitVec.getLsbD_ofBool, BitVec.getLsbD_extractLsb']
  rcases n with _ | _ | _ | n
  · simp
  · simp
  · simp
  · by_cases h : n < 5
    · have e : 3 + n = n + 1 + 1 + 1 := by omega
      simp [h, e]
    · simp [h, BitVec.getLsbD_of_ge st (n + 1 + 1 + 1) (by omega)]

@[simp] theorem FlagUpdate.apply_none (st : Byte) : FlagUpdate.none.apply st = st := by
  apply BitVec.eq_of_getLsbD_eq
  intro i _
  rw [FlagUpdate.apply_getLsbD]
  simp only [FlagUpdate.none, Option.getD_none]
  split
  · next h => rw [h]
  · split
    · next h => rw [h]
    · split
      · next h => rw [h]
      · rfl

theorem writeStatus_getLsbD (v : Byte) (nf : Bool) (st : Byte) (n : Nat) :
    (writeStatus v nf st).getLsbD n =
      if n < 3 then (if nf then v.getLsbD n else st.getLsbD n) else if n < 5 then st.getLsbD n else v.getLsbD n := by
  show (@BitVec.getLsbD (3 + 2 + 3) (_ ++ _) n) = _
  simp only [BitVec.getLsbD_append, BitVec.getLsbD_extractLsb']
  by_cases h3 : n < 3
  · cases nf <;> simp [h3]
  · by_cases h5 : n < 5
    · have e : 3 + (n - 3) = n := by omega
      have l : n - 3 < 2 := by omega
      simp [h3, h5, e, l]
    · have l : ¬ n - 3 < 2 := by omega
      by_cases h8 : n < 8
      · have e : 5 + (n - 3 - 2) = n := by omega
        have l' : n - 3 - 2 < 3 := by omega
        simp [h3, h5, e, l, l']
      · have l' : ¬ n - 3 - 2 < 3 := by omega
        simp [h3, h5, l, l', BitVec.getLsbD_of_ge v n (by omega)]

theorem withToPd_getLsbD (st : Byte) (x y : Bool) (n : Nat) :
    (withToPd st x y).getLsbD n = if n = 4 then x else if n = 3 then y else st.getLsbD n := by
  show (@BitVec.getLsbD (3 + 1 + 1 + 3) (_ ++ _) n) = _
  simp only [BitVec.getLsbD_append, BitVec.getLsbD_ofBool, BitVec.getLsbD_extractLsb']
  rcases n with _ | _ | _ | _ | _ | n
  · simp
  · simp
  · simp
  · simp
  · simp
  · by_cases h : n < 3
    · have e : 5 + n = n + 1 + 1 + 1 + 1 + 1 := by omega
      simp [h, e]
    · simp [h, BitVec.getLsbD_of_ge st (n + 1 + 1 + 1 + 1 + 1) (by omega)]

theorem withGie_getLsbD (ic : Byte) (b : Bool) (n : Nat) :
    (withGie ic b).getLsbD n = if n = 7 then b else ic.getLsbD n := by
  show (@BitVec.getLsbD (1 + 7) (_ ++ _) n) = _
  simp only [BitVec.getLsbD_append, BitVec.getLsbD_ofBool, BitVec.getLsbD_extractLsb']
  by_cases h : n < 7
  · have : n ≠ 7 := by omega
    simp [h, this]
  · by_cases h7 : n = 7
    · subst h7; simp
    · have : n - 7 ≠ 0 := by omega
      simp [h, h7, this, BitVec.getLsbD_of_ge ic n (by omega)]

/-- Setting flags is what `FlagsSet` says. -/
theorem flagsSet_setFlags (u : FlagUpdate) (m : State) : FlagsSet u m (m.setFlags u) where
  only := rfl
  z := FlagUpdate.apply_getLsbD u m.status 2
  dc := FlagUpdate.apply_getLsbD u m.status 1
  c := FlagUpdate.apply_getLsbD u m.status 0
  rest := fun n hn => by
    rw [State.setFlags_status, FlagUpdate.apply_getLsbD, if_neg (by omega), if_neg (by omega), if_neg (by omega)]

/-! ### The arithmetic as numbers -/

theorem sum9_toNat (a b : Byte) : (sum9 a b).toNat = a.toNat + b.toNat := by
  have ha := a.isLt
  have hb := b.isLt
  simp only [sum9, BitVec.toNat_add, BitVec.toNat_setWidth]
  omega

theorem lowNibble_eq (a : Byte) : lowNibble a = a.toNat % 16 := by simp [lowNibble, BitVec.extractLsb'_toNat]

theorem zeroFlag_eq (r : Byte) : zeroFlag r = decide (r = 0x00#8) := by simp [zeroFlag, BEq.beq]

theorem bit8_eq (r : BitVec 9) : r.getLsbD 8 = decide (255 < r.toNat) := by
  have h := r.isLt
  rw [BitVec.getLsbD, Nat.testBit_eq_decide_div_mod_eq]
  congr 1
  simp only [eq_iff_iff]
  omega

/-- ADDWF and ADDLW (R31): the sum and its flags. -/
theorem aluAdd_eq (a b : Byte) :
    aluAdd a b = ⟨BitVec.ofNat 8 (a.toNat + b.toNat),
      ⟨some (decide ((a.toNat + b.toNat) % 256 = 0)), some (decide (15 < a.toNat % 16 + b.toNat % 16)),
       some (decide (255 < a.toNat + b.toNat))⟩⟩ := by
  have hv : (sum9 a b).setWidth 8 = BitVec.ofNat 8 (a.toNat + b.toNat) := by
    apply BitVec.eq_of_toNat_eq
    simp [sum9_toNat]
  unfold aluAdd
  simp only [hv, zeroFlag_eq, lowNibble_eq, bit8_eq, sum9_toNat, AluResult.mk.injEq, FlagUpdate.mk.injEq,
    Option.some.injEq, true_and]
  refine ⟨?_, ?_⟩
  · congr 1
    rw [← BitVec.toNat_inj]
    simp
  · simp

/-- SUBWF and SUBLW (R31): the difference and its flags; C and DC set mean that nothing was borrowed. -/
theorem aluSub_eq (a b : Byte) :
    aluSub a b = ⟨BitVec.ofNat 8 (a.toNat + 256 - b.toNat),
      ⟨some (decide (a.toNat = b.toNat)), some (decide (b.toNat % 16 ≤ a.toNat % 16)),
       some (decide (b.toNat ≤ a.toNat))⟩⟩ := by
  have ha := a.isLt
  have hb := b.isLt
  have hn : (~~~b).toNat = 255 - b.toNat := by rw [BitVec.toNat_not]
  have h9 : (sum9 a (~~~b) + 1#9).toNat = a.toNat + 256 - b.toNat := by
    rw [BitVec.toNat_add, sum9_toNat, hn]
    simp only [BitVec.toNat_ofNat]
    omega
  have hv : (sum9 a (~~~b) + 1#9).setWidth 8 = BitVec.ofNat 8 (a.toNat + 256 - b.toNat) := by
    apply BitVec.eq_of_toNat_eq
    rw [BitVec.toNat_setWidth, h9, BitVec.toNat_ofNat]
  unfold aluSub
  simp only [hv, zeroFlag_eq, lowNibble_eq, bit8_eq, h9, hn, AluResult.mk.injEq, FlagUpdate.mk.injEq,
    Option.some.injEq, true_and]
  refine ⟨?_, ?_, ?_⟩
  · congr 1
    rw [← BitVec.toNat_inj]
    simp only [BitVec.toNat_ofNat, eq_iff_iff]
    omega
  · congr 1
    simp only [eq_iff_iff]
    omega
  · congr 1
    simp only [eq_iff_iff]
    omega

theorem incByte_eq (a : Byte) : incByte a = BitVec.ofNat 8 (a.toNat + 1) := by
  apply BitVec.eq_of_toNat_eq; simp [incByte]

theorem decByte_eq (a : Byte) : decByte a = BitVec.ofNat 8 (a.toNat + 255) := by
  have := a.isLt
  apply BitVec.eq_of_toNat_eq; simp [decByte, BitVec.toNat_sub]; omega

theorem incByte_zero (a : Byte) : incByte a = 0x00#8 ↔ a.toNat = 255 := by
  have := a.isLt
  rw [incByte_eq, ← BitVec.toNat_inj]; simp; omega

theorem decByte_zero (a : Byte) : decByte a = 0x00#8 ↔ a.toNat = 1 := by
  have := a.isLt
  rw [decByte_eq, ← BitVec.toNat_inj]; simp; omega

theorem swapNibbles_eq (a : Byte) : swapNibbles a = BitVec.ofNat 8 (a.toNat % 16 * 16 + a.toNat / 16) := by
  have h := a.isLt
  apply BitVec.eq_of_toNat_eq
  show (@BitVec.toNat (4 + 4) (_ ++ _)) = _
  rw [BitVec.toNat_append, BitVec.extractLsb'_toNat, BitVec.extractLsb'_toNat, BitVec.toNat_ofNat,
    ← Nat.shiftLeft_add_eq_or_of_lt (Nat.mod_lt _ (by decide)), Nat.shiftLeft_eq, Nat.shiftRight_zero,
    Nat.shiftRight_eq_div_pow, Nat.mod_eq_of_lt (by omega : a.toNat / 2 ^ 4 < 2 ^ 4),
    Nat.mod_eq_of_lt (by omega : a.toNat % 16 * 16 + a.toNat / 16 < 2 ^ 8)]
  norm_num

/-- RLF (R163): the value doubled, with the carry below it; C takes bit 7. -/
theorem aluRlf_eq (a : Byte) (c : Bool) :
    aluRlf a c = ⟨BitVec.ofNat 8 (2 * a.toNat + c.toNat), ⟨none, none, some (decide (128 ≤ a.toNat))⟩⟩ := by
  have h := a.isLt
  have hv : (aluRlf a c).value = BitVec.ofNat 8 (2 * a.toNat + c.toNat) := by
    apply BitVec.eq_of_toNat_eq
    show (@BitVec.toNat (7 + 1) (_ ++ _)) = _
    rw [BitVec.toNat_append, BitVec.extractLsb'_toNat, BitVec.toNat_ofNat,
      ← Nat.shiftLeft_add_eq_or_of_lt (BitVec.isLt _), Nat.shiftLeft_eq, BitVec.toNat_ofBool]
    cases c <;> simp <;> omega
  have hc : a.getLsbD 7 = decide (128 ≤ a.toNat) := by
    rw [BitVec.getLsbD, Nat.testBit_eq_decide_div_mod_eq]
    congr 1
    simp only [eq_iff_iff]
    omega
  rw [← hv, ← hc]
  rfl

/-- RRF (R164): the value halved, with the carry above it; C takes bit 0. -/
theorem aluRrf_eq (a : Byte) (c : Bool) :
    aluRrf a c = ⟨BitVec.ofNat 8 (a.toNat / 2 + 128 * c.toNat), ⟨none, none, some (decide (a.toNat % 2 = 1))⟩⟩ := by
  have h := a.isLt
  have hv : (aluRrf a c).value = BitVec.ofNat 8 (a.toNat / 2 + 128 * c.toNat) := by
    apply BitVec.eq_of_toNat_eq
    show (@BitVec.toNat (1 + 7) (_ ++ _)) = _
    rw [BitVec.toNat_append, BitVec.extractLsb'_toNat, BitVec.toNat_ofNat,
      ← Nat.shiftLeft_add_eq_or_of_lt (Nat.mod_lt _ (by decide)), Nat.shiftLeft_eq, BitVec.toNat_ofBool,
      Nat.shiftRight_eq_div_pow]
    cases c <;> simp <;> omega
  have hc : a.getLsbD 0 = decide (a.toNat % 2 = 1) := by
    rw [BitVec.getLsbD, Nat.testBit_eq_decide_div_mod_eq]
    simp
  rw [← hv, ← hc]
  rfl

/-! ### Single bits -/

theorem bitMask_getLsbD (b : BitNo) (n : Nat) : (bitMask b).getLsbD n = decide (n = b.toNat) := by
  have h := b.isLt
  unfold bitMask
  rw [BitVec.getLsbD_shiftLeft]
  by_cases hn : n = b.toNat
  · subst hn; simp; omega
  · by_cases hl : n < b.toNat
    · simp [hl, hn]
    · have : n - b.toNat ≠ 0 := by omega
      simp [hn, hl, this]

/-- BCF (R190): bit `b` is 0, the others stay. -/
theorem clearBit_getLsbD (a : Byte) (b : BitNo) (n : Nat) :
    (clearBit a b).getLsbD n = (a.getLsbD n && decide (n ≠ b.toNat)) := by
  unfold clearBit
  rw [BitVec.getLsbD_and, BitVec.getLsbD_not, bitMask_getLsbD]
  by_cases h : n < 8
  · simp [h]
  · simp [h, BitVec.getLsbD_of_ge a n (by omega)]

/-- BSF (R191): bit `b` is 1, the others stay. -/
theorem setBit_getLsbD (a : Byte) (b : BitNo) (n : Nat) :
    (setBit a b).getLsbD n = (a.getLsbD n || decide (n = b.toNat)) := by
  unfold setBit
  rw [BitVec.getLsbD_or, bitMask_getLsbD]

end Sys2Proof.Machine
end

