-- ==== Sys2Proof/Laws/Memory.lean ====
section
/-! SUPPORT. The arrays: reading after writing, and that every operation keeps the canonical form (`Memory.wf`) and the range of
addresses. -/

namespace Sys2Proof.Machine

variable {n : Nat} {fill : BitVec n}

theorem Memory.wf_nil : Memory.wf fill [] := by simp [Memory.wf]

theorem Memory.wf_tail {c : Nat × BitVec n} {m : Memory n} (h : Memory.wf fill (c :: m)) : Memory.wf fill m :=
  ⟨(List.pairwise_cons.mp h.1).2, fun x hx => h.2 x (List.mem_cons_of_mem _ hx)⟩

/-- Every listed address lies above the first one. -/
theorem Memory.wf_head_lt {c : Nat × BitVec n} {m : Memory n} (h : Memory.wf fill (c :: m)) : ∀ x ∈ m, c.1 < x.1 :=
  (List.pairwise_cons.mp h.1).1

/-- An address below every listed one reads as unlisted. -/
theorem Memory.read_below {m : Memory n} {a : Nat} (h : ∀ c ∈ m, a < c.1) : Memory.read fill m a = fill := by
  induction m with
  | nil => rfl
  | cons c m ih =>
    have hc := h c (by simp)
    rw [Memory.read, if_neg (by omega)]
    exact ih fun x hx => h x (by simp [hx])

theorem Memory.put_read {m : Memory n} {a : Nat} {v : BitVec n} (h : ∀ c ∈ m, a < c.1) (b : Nat) :
    Memory.read fill (Memory.put fill a v m) b = if b = a then v else Memory.read fill m b := by
  unfold Memory.put
  by_cases hv : v = fill
  · subst hv
    by_cases hb : b = a
    · subst hb; simp [Memory.read_below h]
    · simp [hb]
  · by_cases hb : b = a
    · subst hb; simp [hv, Memory.read]
    · simp [hv, hb, Memory.read, Ne.symm hb]

/-- Reading after a write: the value written at its address, the old content elsewhere. -/
theorem Memory.read_write {m : Memory n} (h : Memory.wf fill m) (a : Nat) (v : BitVec n) (b : Nat) :
    Memory.read fill (Memory.write fill m a v) b = if b = a then v else Memory.read fill m b := by
  induction m with
  | nil => exact Memory.put_read (by simp) b
  | cons c m ih =>
    have hlt := Memory.wf_head_lt h
    unfold Memory.write
    by_cases h1 : a < c.1
    · rw [if_pos h1]
      refine Memory.put_read (fun x hx => ?_) b
      rcases List.mem_cons.mp hx with rfl | hx
      · exact h1
      · have := hlt x hx; omega
    · by_cases h2 : c.1 = a
      · rw [if_neg h1, if_pos h2, Memory.put_read (fun x hx => h2 ▸ hlt x hx) b]
        by_cases hb : b = a
        · simp [hb]
        · rw [if_neg hb, if_neg hb, Memory.read, if_neg (by omega)]
      · rw [if_neg h1, if_neg h2]
        simp only [Memory.read]
        by_cases hb : c.1 = b
        · have : b ≠ a := by omega
          simp [hb, this]
        · simp only [if_neg hb]
          exact ih (Memory.wf_tail h)

theorem Memory.read_write_same {m : Memory n} (h : Memory.wf fill m) (a : Nat) (v : BitVec n) :
    Memory.read fill (Memory.write fill m a v) a = v := by rw [Memory.read_write h, if_pos rfl]

theorem Memory.read_write_other {m : Memory n} (h : Memory.wf fill m) (v : BitVec n) {a b : Nat} (hb : b ≠ a) :
    Memory.read fill (Memory.write fill m a v) b = Memory.read fill m b := by rw [Memory.read_write h, if_neg hb]

/-- Every entry after a write is the one written or was there before. -/
theorem Memory.mem_write {m : Memory n} {a : Nat} {v : BitVec n} {x : Nat × BitVec n}
    (hx : x ∈ Memory.write fill m a v) : x = (a, v) ∨ x ∈ m := by
  induction m with
  | nil =>
    unfold Memory.write Memory.put at hx
    split at hx
    · exact absurd hx (by simp)
    · exact Or.inl (by simpa using hx)
  | cons c m ih =>
    unfold Memory.write at hx
    split at hx
    · unfold Memory.put at hx
      split at hx
      · exact Or.inr hx
      · rcases List.mem_cons.mp hx with h | h
        · exact Or.inl h
        · exact Or.inr h
    · split at hx
      · unfold Memory.put at hx
        split at hx
        · exact Or.inr (List.mem_cons_of_mem _ hx)
        · rcases List.mem_cons.mp hx with h | h
          · exact Or.inl h
          · exact Or.inr (List.mem_cons_of_mem _ h)
      · rcases List.mem_cons.mp hx with h | h
        · exact Or.inr (h ▸ by simp)
        · rcases ih h with h | h
          · exact Or.inl h
          · exact Or.inr (List.mem_cons_of_mem _ h)

/-- `put` in front of higher addresses keeps the form. -/
theorem Memory.put_wf {m : Memory n} (h : Memory.wf fill m) {a : Nat} {v : BitVec n} (hlt : ∀ c ∈ m, a < c.1) :
    Memory.wf fill (Memory.put fill a v m) := by
  unfold Memory.put
  split
  · exact h
  · rename_i hv
    refine ⟨List.pairwise_cons.mpr ⟨hlt, h.1⟩, fun x hx => ?_⟩
    rcases List.mem_cons.mp hx with rfl | hx
    · exact hv
    · exact h.2 x hx

/-- A write keeps the canonical form. -/
theorem Memory.write_wf {m : Memory n} (h : Memory.wf fill m) (a : Nat) (v : BitVec n) :
    Memory.wf fill (Memory.write fill m a v) := by
  induction m with
  | nil => exact Memory.put_wf Memory.wf_nil (by simp)
  | cons c m ih =>
    have hlt := Memory.wf_head_lt h
    unfold Memory.write
    split
    · rename_i h1
      refine Memory.put_wf h fun x hx => ?_
      rcases List.mem_cons.mp hx with rfl | hx
      · exact h1
      · have := hlt x hx; omega
    · split
      · rename_i h2
        exact Memory.put_wf (Memory.wf_tail h) fun x hx => h2 ▸ hlt x hx
      · rename_i h1 h2
        have hm := ih (Memory.wf_tail h)
        refine ⟨List.pairwise_cons.mpr ⟨fun x hx => ?_, hm.1⟩, fun x hx => ?_⟩
        · rcases Memory.mem_write hx with rfl | hx
          · simp only; omega
          · exact hlt x hx
        · rcases List.mem_cons.mp hx with rfl | hx
          · exact h.2 _ (by simp)
          · exact hm.2 x hx

/-- A write inside a range keeps the entries in the range. -/
theorem Memory.write_within {m : Memory n} {lo hi : Nat} (h : Memory.within lo hi m) {a : Nat} (ha : lo ≤ a ∧ a ≤ hi)
    (v : BitVec n) : Memory.within lo hi (Memory.write fill m a v) := by
  intro c hc
  rcases Memory.mem_write hc with rfl | hc
  · exact ha
  · exact h c hc

theorem Memory.fillWith_wf {g : Nat → BitVec n} {m : Memory n} (h : Memory.wf fill m) (start count : Nat) :
    Memory.wf fill (Memory.fillWith fill g m start count) := by
  induction count generalizing m start with
  | zero => exact h
  | succ k ih => exact ih (Memory.write_wf h _ _) _

theorem Memory.fillWith_within {g : Nat → BitVec n} {m : Memory n} {lo hi : Nat} (h : Memory.within lo hi m)
    (start count : Nat) (hlo : lo ≤ start) (hhi : start + count ≤ hi + 1) :
    Memory.within lo hi (Memory.fillWith fill g m start count) := by
  induction count generalizing m start with
  | zero => exact h
  | succ k ih => exact ih (Memory.write_within h ⟨hlo, by omega⟩ _) _ (by omega) (by omega)

/-- After filling, the addresses in the range read as `g` says and the others as before. -/
theorem Memory.read_fillWith {g : Nat → BitVec n} {m : Memory n} (h : Memory.wf fill m) (start count a : Nat) :
    Memory.read fill (Memory.fillWith fill g m start count) a
      = if start ≤ a ∧ a < start + count then g a else Memory.read fill m a := by
  induction count generalizing m start with
  | zero => rw [Memory.fillWith, if_neg (by omega)]
  | succ k ih =>
    rw [Memory.fillWith, ih (Memory.write_wf h _ _)]
    by_cases h1 : start + 1 ≤ a ∧ a < start + 1 + k
    · rw [if_pos h1, if_pos (by omega)]
    · rw [if_neg h1, Memory.read_write h]
      by_cases h2 : a = start
      · subst h2; rw [if_pos rfl, if_pos (by omega)]
      · rw [if_neg h2, if_neg (by omega)]

end Sys2Proof.Machine
end

