-- ==== Sys2Proof/Laws/Agents.lean ====
section
/-! SUPPORT. What each agent beside the CPU can do in one cycle, and what they all leave alone (R300). -/

namespace Sys2Proof.Machine

variable (s : State)

/-- The state with every field of Timer0 put to one value (R301). -/
def State.lessTimer0 (s : State) : State :=
  { s with tmr0 := 0x00#8, presc := 0x00#8, t0Sync := 0b00#2, t0Skip := false, t0Prev := false, intcon := 0x00#8 }

/-- The state with every field the EEPROM's write timer may change put to one value (R317). -/
def State.lessEeWrite (s : State) : State := { s with eeprom := [], eecon1 := 0x00#5, eeBusy := false, eeTimer := 0 }

/-- The state with every field the Watchdog may change put to one value (R252, R262, R306). -/
def State.lessWdt (s : State) : State :=
  { s with wdtCnt := 0, presc := 0x00#8, wdtTimeout := false, status := 0x00#8, sleeping := false, ostLeft := 0,
           t0Prev := false }

/-- The state with every field the agents beside the CPU may change put to one value. -/
def State.lessTick (s : State) : State :=
  { s.lessTimer0.lessEeWrite.lessWdt with intPrev := false, draws := 0, pins := pinsLow, pinQueue := [] }

/-! ### The pins -/

theorem advanceEnv_frame : (advanceEnv s).lessTick = s.lessTick := by unfold advanceEnv; split <;> rfl

/-- The environment changes only what it presents. -/
theorem advanceEnv_eq : advanceEnv s = { s with pins := (advanceEnv s).pins, pinQueue := (advanceEnv s).pinQueue } := by
  unfold advanceEnv; split <;> rfl

theorem intPinCycle_eq :
    intPinCycle s = { s with
      intcon := if s.intPinEdge then s.intcon ||| 0x02#8 else s.intcon, intPrev := s.pinB 0 } := rfl

theorem rbChangeCycle_eq :
    rbChangeCycle s = { s with intcon := if s.rbMismatch then s.intcon ||| 0x01#8 else s.intcon } := rfl

/-! ### Timer0 -/

theorem t0Clock_frame (p : Nat) : (t0Clock p s).lessTimer0 = s.lessTimer0 := by
  unfold t0Clock t0Count prescale; split <;> rfl

/-- Timer0 changes its own registers and T0IF at most (R301). -/
theorem timer0Cycle_frame : (timer0Cycle s).lessTimer0 = s.lessTimer0 := by
  unfold timer0Cycle
  split
  · rfl
  · split
    · exact t0Clock_frame _ _
    · exact t0Clock_frame _ _

theorem prescale_frame (p : Nat) : (prescale p s) = { s with presc := (prescale p s).presc } := by
  unfold prescale; split <;> rfl

theorem prescale_presc (p : Nat) :
    (prescale p s).presc = if s.psa then s.presc else BitVec.ofNat 8 (s.presc.toNat + p) := by
  unfold prescale; split <;> rfl

theorem t0Clock_tmr0 (p : Nat) :
    (t0Clock p s).tmr0 = if s.t0Sync.getLsbD 1 then s.tmr0 + 0x01#8 else s.tmr0 := by
  unfold t0Clock t0Count; rw [prescale_frame]

theorem t0Clock_t0Sync (p : Nat) :
    (t0Clock p s).t0Sync = s.t0Sync.extractLsb' 0 1 ++ BitVec.ofBool (prescalePulse p s) := by
  unfold t0Clock t0Count; rw [prescale_frame]

theorem t0Clock_presc (p : Nat) : (t0Clock p s).presc = (prescale p s).presc := rfl

theorem t0Clock_t0Skip (p : Nat) : (t0Clock p s).t0Skip = s.t0Skip := by unfold t0Clock t0Count; rw [prescale_frame]

theorem t0Clock_intcon (p : Nat) :
    (t0Clock p s).intcon
      = if s.t0Sync.getLsbD 1 && decide (s.tmr0 = 0xFF#8) then s.intcon ||| 0x04#8 else s.intcon := by
  unfold t0Clock t0Count; rw [prescale_frame]

/-! ### The data EEPROM's write timer -/

theorem eeComplete_frame : (eeComplete s).lessEeWrite = s.lessEeWrite := rfl

/-- The write timer changes a cell, EECON1 and its own fields at most (R317). -/
theorem eeTimerCycle_frame : (eeTimerCycle s).lessEeWrite = s.lessEeWrite := by
  simp only [eeTimerCycle]
  split
  · split <;> rfl
  · rfl

/-- One unit of a write (R317): nothing where none is in progress, else it goes on or it completes. -/
theorem eeTimerCycle_cases :
    (s.eeBusy = false ∧ eeTimerCycle s = s)
    ∨ (s.eeBusy = true
        ∧ due s.cfg.eeMin s.cfg.eeMax (s.eeTimer + 1) (Config.eeWriteDone s.draws) = false
        ∧ eeTimerCycle s = { s with eeTimer := s.eeTimer + 1 })
    ∨ (s.eeBusy = true
        ∧ due s.cfg.eeMin s.cfg.eeMax (s.eeTimer + 1) (Config.eeWriteDone s.draws) = true
        ∧ eeTimerCycle s = eeComplete { s with eeTimer := s.eeTimer + 1 }) := by
  by_cases hb : s.eeBusy = true
  · by_cases hd : due s.cfg.eeMin s.cfg.eeMax (s.eeTimer + 1) (Config.eeWriteDone s.draws) = true
    · exact Or.inr (Or.inr ⟨hb, hd, by simp only [eeTimerCycle]; rw [if_pos hb, if_pos hd]⟩)
    · exact Or.inr (Or.inl ⟨hb, by simpa using hd, by simp only [eeTimerCycle]; rw [if_pos hb, if_neg hd]⟩)
  · exact Or.inl ⟨by simpa using hb, by simp only [eeTimerCycle]; rw [if_neg hb]⟩

/-- What lies between two bounds has come at the upper one. -/
theorem due_false {lo hi t : Nat} {d : Bool} (h : due lo hi t d = false) (hl : lo ≤ hi) : t < hi := by
  unfold due at h
  by_contra hc
  have h1 : lo ≤ t := by omega
  have h2 : hi ≤ t := by omega
  simp [h1, h2] at h

/-- With equal bounds nothing is left open. -/
theorem due_same (p t : Nat) (d : Bool) : due p p t d = decide (p ≤ t) := by
  unfold due; by_cases h : p ≤ t <;> simp [h]

/-! ### The Watchdog -/

theorem wdtTimeoutEvent_frame : (wdtTimeoutEvent s).lessWdt = s.lessWdt := by unfold wdtTimeoutEvent; split <;> rfl

theorem wdtPulse_frame : (wdtPulse s).lessWdt = s.lessWdt := by
  simp only [wdtPulse]
  split
  · split
    · exact wdtTimeoutEvent_frame _
    · rfl
  · exact wdtTimeoutEvent_frame _

/-- The Watchdog changes its own fields, the postscaler, and where it wakes the device TO (R252, R262). -/
theorem wdtCycle_frame : (wdtCycle s).lessWdt = s.lessWdt := by
  simp only [wdtCycle]
  split
  · split
    · exact wdtPulse_frame _
    · rfl
  · rfl

/-- A pulse of the Watchdog: a count of the postscaler, or a time-out (R252). -/
theorem wdtPulse_cases : ∃ p : Byte,
    (s.psa = false → p = s.presc)
    ∧ (wdtPulse s = { s with presc := p } ∨ wdtPulse s = wdtTimeoutEvent { s with presc := p }) := by
  by_cases h : s.psa = true
  · refine ⟨s.presc + 0x01#8, fun h' => absurd h (by simp [h']), ?_⟩
    simp only [wdtPulse]
    rw [if_pos h]
    split
    · exact Or.inr rfl
    · exact Or.inl rfl
  · refine ⟨s.presc, fun _ => rfl, ?_⟩
    simp only [wdtPulse]
    rw [if_neg h]
    exact Or.inr rfl

/-- One unit of the Watchdog's time: it counts, and at the end of its raw period the count begins anew; with WDTE = 1 a pulse
then counts in the postscaler or is a time-out. -/
theorem wdtCycle_cases : ∃ (c : Nat) (p : Byte),
    (s.psa = false → p = s.presc)
    ∧ (s.cfg.wdtMin ≤ s.cfg.wdtMax → 0 < s.cfg.wdtMax → s.wdtCnt < s.cfg.wdtMax → c < s.cfg.wdtMax)
    ∧ (wdtCycle s = { s with wdtCnt := c, presc := p }
      ∨ (s.cfg.wdte = true ∧ wdtCycle s = wdtTimeoutEvent { s with wdtCnt := c, presc := p })) := by
  by_cases hd : due s.cfg.wdtMin s.cfg.wdtMax (s.wdtCnt + 1) (Config.wdtPulseNow s.draws) = true
  · by_cases he : s.cfg.wdte = true
    · obtain ⟨p, hp, h⟩ := wdtPulse_cases { s with wdtCnt := 0 }
      refine ⟨0, p, hp, fun _ h0 _ => h0, ?_⟩
      have hw : wdtCycle s = wdtPulse { s with wdtCnt := 0 } := by
        simp only [wdtCycle]; rw [if_pos hd, if_pos he]
      rcases h with h | h
      · exact Or.inl (hw.trans h)
      · exact Or.inr ⟨he, hw.trans h⟩
    · refine ⟨0, s.presc, fun _ => rfl, fun _ h0 _ => h0, Or.inl ?_⟩
      simp only [wdtCycle]; rw [if_pos hd, if_neg he]
  · refine ⟨s.wdtCnt + 1, s.presc, fun _ => rfl, fun hl _ _ => ?_, Or.inl ?_⟩
    · exact due_false (by simpa using hd) hl
    · simp only [wdtCycle]; rw [if_neg hd]

/-! ### All of them -/

theorem lessTick_of_timer0 {a b : State} (h : a.lessTimer0 = b.lessTimer0) : a.lessTick = b.lessTick := by
  have h' := congrArg State.lessTick h; exact h'

theorem lessTick_of_eeWrite {a b : State} (h : a.lessEeWrite = b.lessEeWrite) : a.lessTick = b.lessTick := by
  have h' := congrArg State.lessTick h; exact h'

theorem lessTick_of_wdt {a b : State} (h : a.lessWdt = b.lessWdt) : a.lessTick = b.lessTick := by
  have h' := congrArg State.lessTick h; exact h'

theorem endCycle_frame : (endCycle s).lessTick = s.lessTick := by
  unfold endCycle; rw [advanceEnv_frame]; rfl

theorem intPinCycle_frame : (intPinCycle s).lessTick = s.lessTick := rfl

theorem rbChangeCycle_frame : (rbChangeCycle s).lessTick = s.lessTick := rfl

theorem t0Prev_frame (b : Bool) : ({ s with t0Prev := b }).lessTick = s.lessTick := rfl

/-- What a cycle of the agents leaves alone: W, the PC, the stack, the latches and directions, OPTION_REG, PCLATH, FSR, the
general registers, EEDATA, EEADR, the program and the configuration. -/
theorem tickCycle_frame : (tickCycle s).lessTick = s.lessTick := by
  unfold tickCycle
  rw [endCycle_frame, lessTick_of_wdt (wdtCycle_frame _), lessTick_of_eeWrite (eeTimerCycle_frame _),
    lessTick_of_timer0 (timer0Cycle_frame _), rbChangeCycle_frame, intPinCycle_frame]

theorem tick_frame (n : Nat) : (tick n s).lessTick = s.lessTick := by
  induction n generalizing s with
  | zero => rfl
  | succ n ih => exact (ih _).trans (tickCycle_frame s)

theorem idleCycle_frame : (idleCycle s).lessTick = s.lessTick := by
  unfold idleCycle
  rw [endCycle_frame, lessTick_of_wdt (wdtCycle_frame _), lessTick_of_eeWrite (eeTimerCycle_frame _), t0Prev_frame,
    rbChangeCycle_frame, intPinCycle_frame]

end Sys2Proof.Machine
end

