-- ==== Sys2Proof/Laws/Decode.lean ====
section
/-! SUPPORT. The fields of the words of the four formats, each one lemma: what the decoder reads from a word that `formatB`,
`formatT`, `formatL` or `formatJ` builds. -/

namespace Sys2Proof

/-- A part of the low half of a word put together of two. -/
theorem extract_append_low {n m : Nat} (hi : BitVec n) (lo : BitVec m) (start len : Nat) (h : start + len ≤ m) :
    (hi ++ lo).extractLsb' start len = lo.extractLsb' start len := by
  apply BitVec.eq_of_getLsbD_eq
  intro i hi'
  simp only [BitVec.getLsbD_extractLsb', BitVec.getLsbD_append]
  rw [if_pos (show start + i < m by omega)]

/-- A part of the high half of a word put together of two. -/
theorem extract_append_high {n m : Nat} (hi : BitVec n) (lo : BitVec m) (start len : Nat) (h : m ≤ start) :
    (hi ++ lo).extractLsb' start len = hi.extractLsb' (start - m) len := by
  apply BitVec.eq_of_getLsbD_eq
  intro i hi'
  simp only [BitVec.getLsbD_extractLsb', BitVec.getLsbD_append]
  rw [if_neg (show ¬(start + i < m) by omega), Nat.sub_add_comm h]

theorem extract_all {n : Nat} (v : BitVec n) : v.extractLsb' 0 n = v := by
  apply BitVec.eq_of_getLsbD_eq
  intro i hi
  rw [BitVec.getLsbD_extractLsb', Nat.zero_add]
  simp [hi]

@[simp] theorem fieldF_formatB (op : BitVec 6) (d : Dest) (f : FileAddr) : fieldF (formatB op d f) = f :=
  (extract_append_low (op ++ d.bit) f 0 7 (by decide)).trans (extract_all f)

@[simp] theorem fieldD_formatB (op : BitVec 6) (d : Dest) (f : FileAddr) : fieldD (formatB op d f) = d := by
  have h : (formatB op d f).getLsbD 7 = d.bit.getLsbD 0 := by
    show (op ++ d.bit ++ f).getLsbD 7 = _
    rw [BitVec.getLsbD_append, if_neg (by decide), BitVec.getLsbD_append, if_pos (by decide)]
  unfold fieldD
  rw [h]
  cases d <;> rfl

@[simp] theorem class_formatB (op : BitVec 6) (d : Dest) (f : FileAddr) :
    (formatB op d f).extractLsb' 12 2 = op.extractLsb' 4 2 :=
  (extract_append_high (op ++ d.bit) f 12 2 (by decide)).trans (extract_append_high op d.bit 5 2 (by decide))

@[simp] theorem opcode_formatB (op : BitVec 6) (d : Dest) (f : FileAddr) :
    (formatB op d f).extractLsb' 8 4 = op.extractLsb' 0 4 :=
  (extract_append_high (op ++ d.bit) f 8 4 (by decide)).trans (extract_append_high op d.bit 1 4 (by decide))

@[simp] theorem fieldF_formatT (op : BitVec 4) (b : BitNo) (f : FileAddr) : fieldF (formatT op b f) = f :=
  (extract_append_low (op ++ b) f 0 7 (by decide)).trans (extract_all f)

@[simp] theorem fieldB_formatT (op : BitVec 4) (b : BitNo) (f : FileAddr) : fieldB (formatT op b f) = b :=
  ((extract_append_high (op ++ b) f 7 3 (by decide)).trans (extract_append_low op b 0 3 (by decide))).trans (extract_all b)

@[simp] theorem class_formatT (op : BitVec 4) (b : BitNo) (f : FileAddr) :
    (formatT op b f).extractLsb' 12 2 = op.extractLsb' 2 2 :=
  (extract_append_high (op ++ b) f 12 2 (by decide)).trans (extract_append_high op b 5 2 (by decide))

@[simp] theorem opcode_formatT (op : BitVec 4) (b : BitNo) (f : FileAddr) :
    (formatT op b f).extractLsb' 10 2 = op.extractLsb' 0 2 :=
  (extract_append_high (op ++ b) f 10 2 (by decide)).trans (extract_append_high op b 3 2 (by decide))

@[simp] theorem fieldK_formatL (op : BitVec 6) (k : Byte) : fieldK (formatL op k) = k :=
  (extract_append_low op k 0 8 (by decide)).trans (extract_all k)

@[simp] theorem class_formatL (op : BitVec 6) (k : Byte) : (formatL op k).extractLsb' 12 2 = op.extractLsb' 4 2 :=
  extract_append_high op k 12 2 (by decide)

@[simp] theorem opcode_formatL (op : BitVec 6) (k : Byte) : (formatL op k).extractLsb' 8 4 = op.extractLsb' 0 4 :=
  extract_append_high op k 8 4 (by decide)

@[simp] theorem fieldJ_formatJ (op : BitVec 3) (k : JumpLit) : fieldJ (formatJ op k) = k :=
  (extract_append_low op k 0 11 (by decide)).trans (extract_all k)

@[simp] theorem class_formatJ (op : BitVec 3) (k : JumpLit) : (formatJ op k).extractLsb' 12 2 = op.extractLsb' 1 2 :=
  extract_append_high op k 12 2 (by decide)

@[simp] theorem opcode_formatJ (op : BitVec 3) (k : JumpLit) : (formatJ op k).getLsbD 11 = op.getLsbD 0 := by
  show (op ++ k).getLsbD 11 = _
  rw [BitVec.getLsbD_append, if_neg (by decide)]

/-- The decoder on a word of format B is its first table on the opcode field. -/
theorem decode_formatB (op : BitVec 6) (d : Dest) (f : FileAddr) (h : op.extractLsb' 4 2 = 0b00#2) :
    decode (formatB op d f) = decodeByteOriented (formatB op d f) := by
  unfold decode
  rw [class_formatB, h]
  rfl

theorem decode_formatT (op : BitVec 4) (b : BitNo) (f : FileAddr) (h : op.extractLsb' 2 2 = 0b01#2) :
    decode (formatT op b f) = .ok (decodeBitOriented (formatT op b f)) := by
  unfold decode
  rw [class_formatT, h]
  rfl

theorem decode_formatL (op : BitVec 6) (k : Byte) (h : op.extractLsb' 4 2 = 0b11#2) :
    decode (formatL op k) = decodeLiteral (formatL op k) := by
  unfold decode
  rw [class_formatL, h]
  rfl

theorem decode_formatJ (op : BitVec 3) (k : JumpLit) (h : op.extractLsb' 1 2 = 0b10#2) :
    decode (formatJ op k) = .ok (decodeJump (formatJ op k)) := by
  unfold decode
  rw [class_formatJ, h]
  rfl

end Sys2Proof
end

