-- ==== Sys2Proof/Laws/Operands.lean ====
section
/-! SUPPORT. What the shared operations on file operands can do: the read, the write, and the four shapes of an instruction. -/

namespace Sys2Proof.Machine

variable (s : State)

/-! ### Reading -/

/-- A read changes the value latched for the port change comparator and the count of draws at most (R86). -/
theorem memRead_frame (loc : Loc) :
    (memRead loc s).2 = { s with rbold := (memRead loc s).2.rbold, draws := (memRead loc s).2.draws } := by
  cases loc <;> rfl

/-- Only a read of PORTB latches RBOLD (R285). -/
theorem memRead_rbold {loc : Loc} (h : loc ≠ .portb) : (memRead loc s).2.rbold = s.rbold := by
  cases loc <;> first | rfl | exact absurd rfl h

theorem State.afterRead_frame (f : FileAddr) :
    s.afterRead f = { s with
      rbold := (memRead (resolve f s) s).2.rbold, draws := (memRead (resolve f s) s).2.draws, pc := s.pc + 1,
      cycles := 1 } := by
  unfold State.afterRead; rw [memRead_frame]

theorem afterRead_eq_sequential (f : FileAddr) : (memRead (resolve f s) s).2.sequential = s.afterRead f := by
  unfold State.sequential State.afterRead; rw [memRead_frame]

/-! ### Writing -/

/-- The state with every field a write of EECON1 may change put to one value (R312). -/
def State.lessEe (s : State) : State :=
  { s with
    eecon1 := 0x00#5, eedata := 0x00#8, draws := 0, eeSeq := .idle, eeBusy := false, eeWAddr := 0x00#8, eeWData := 0x00#8,
    eeTimer := 0 }

/-- The state with every field a file register write may change put to one value (R87). -/
def State.lessFile (s : State) : State :=
  { s.lessEe with
    pc := 0x0000#13, cycles := 0, status := 0x00#8, fsr := 0x00#8, lata := 0x00#5, latb := 0x00#8, pclath := 0x00#5,
    intcon := 0x00#8, optionReg := 0x00#8, trisa := 0x00#5, trisb := 0x00#8, tmr0 := 0x00#8, presc := 0x00#8,
    t0Sync := 0b00#2, t0Skip := false, eeadr := 0x00#8, ram := [] }

/-- The state with every field an instruction with a file operand may change put to one value. -/
def State.lessFileOp (s : State) : State := { s.lessFile with w := 0x00#8, rbold := 0x0#4 }

theorem eeReadOp_frame : (eeReadOp s).lessEe = s.lessEe := by unfold eeReadOp; split <;> rfl

theorem eeStartWrite_frame (old : Bool) : (eeStartWrite old s).lessEe = s.lessEe := by
  unfold eeStartWrite; split <;> rfl

/-- A write of EECON1 changes EECON1, EEDATA, the write sequence and what a write in progress has latched, at most (R312). -/
theorem writeEecon1_frame (v : Byte) : (writeEecon1 v s).lessEe = s.lessEe := by
  simp only [writeEecon1]
  split <;> split
  · exact (eeStartWrite_frame _ _).trans (eeReadOp_frame _)
  · exact eeStartWrite_frame _ _
  · exact eeReadOp_frame _
  · rfl

/-- What a write to one location leaves alone (R87): every field that is no file register's. -/
theorem memWrite_frame (loc : Loc) (v : Byte) (nf : Bool) : (memWrite loc v nf s).lessFile = s.lessFile := by
  cases loc <;> first
    | rfl
    | (have h := congrArg State.lessFile (writeEecon1_frame s v); exact h)

/-- Where the destination is not EECON1, the write changes nothing of the data EEPROM's registers but its own. -/
theorem memWrite_ne_eecon1 {loc : Loc} (h : loc ≠ .eecon1) (v : Byte) (nf : Bool) :
    (memWrite loc v nf s).eecon1 = s.eecon1 ∧ (memWrite loc v nf s).eeBusy = s.eeBusy
      ∧ (memWrite loc v nf s).eeWAddr = s.eeWAddr ∧ (memWrite loc v nf s).eeWData = s.eeWData
      ∧ (memWrite loc v nf s).eeTimer = s.eeTimer ∧ (memWrite loc v nf s).draws = s.draws := by
  cases loc <;> first
    | exact ⟨rfl, rfl, rfl, rfl, rfl, rfl⟩
    | exact absurd rfl h

theorem memWrite_pc {loc : Loc} (h : loc ≠ .pcl) (v : Byte) (nf : Bool) :
    (memWrite loc v nf s).pc = s.pc ∧ (memWrite loc v nf s).cycles = s.cycles := by
  cases loc <;> first
    | exact ⟨rfl, rfl⟩
    | exact absurd rfl h
    | (have h := writeEecon1_frame s v
       have h1 := congrArg State.pc h
       have h2 := congrArg State.cycles h
       exact ⟨h1, h2⟩)

theorem memWrite_status {loc : Loc} (h : loc ≠ .status) (v : Byte) (nf : Bool) :
    (memWrite loc v nf s).status = s.status := by
  cases loc <;> first
    | rfl
    | exact absurd rfl h
    | (have h := congrArg State.status (writeEecon1_frame s v); exact h)

/-- TO and PD are not writable (R92). -/
theorem memWrite_toPd (loc : Loc) (v : Byte) (nf : Bool) :
    (memWrite loc v nf s).timeOut = s.timeOut ∧ (memWrite loc v nf s).powerDown = s.powerDown := by
  by_cases h : loc = .status
  · subst h
    refine ⟨?_, ?_⟩
    · exact writeStatus_getLsbD v nf s.status 4
    · exact writeStatus_getLsbD v nf s.status 3
  · refine ⟨?_, ?_⟩
    · exact congrArg (·.getLsbD 4) (memWrite_status s h v nf)
    · exact congrArg (·.getLsbD 3) (memWrite_status s h v nf)

/-! ### The shapes of an instruction -/

theorem writeDest_eq (f : FileAddr) (d : Dest) (r : AluResult) :
    writeDest (resolve f s) d r (s.afterRead f) = (s.stored f d r.value r.flags.isEmpty).setFlags r.flags := by
  cases d <;> rfl

/-- The shape `f,d`: the operation's result goes to the destination and its flags are set; it always completes. -/
theorem fileOp_eq (f : FileAddr) (d : Dest) (op : Byte → AluResult) :
    fileOp f d op s
      = .next ((s.stored f d (op (s.operand f)).value (op (s.operand f)).flags.isEmpty).setFlags
          (op (s.operand f)).flags) := by
  unfold fileOp
  simp only [afterRead_eq_sequential]
  rw [← writeDest_eq]
  rfl

/-- An instruction whose meaning is `fileOp` with result `r` and flags `u` completes with them. -/
theorem fileResult_of_fileOp {i : Instr} {f : FileAddr} {d : Dest} {op : Byte → AluResult} {r : Byte} {u : FlagUpdate}
    (he : exec i s = fileOp f d op s) (ho : op (s.operand f) = ⟨r, u⟩) : FileResult i f d s r u := by
  refine ⟨_, he.trans (fileOp_eq s f d op), ?_⟩
  rw [ho]
  exact flagsSet_setFlags _ _

theorem destIsPcl_iff (f : FileAddr) (d : Dest) : destIsPcl f d s = true ↔ d = .f ∧ resolve f s = .pcl := by
  simp [destIsPcl]

theorem stored_pc {f : FileAddr} {d : Dest} (h : ¬(d = .f ∧ resolve f s = .pcl)) (r : Byte) (nf : Bool) :
    (s.stored f d r nf).pc = s.pc + 1 ∧ (s.stored f d r nf).cycles = 1 := by
  cases d with
  | w => exact ⟨rfl, rfl⟩
  | f => exact memWrite_pc (s.afterRead f) (fun e => h ⟨rfl, e⟩) r nf

/-- Setting no flag changes nothing. -/
@[simp] theorem setFlags_none : s.setFlags FlagUpdate.none = s := by
  unfold State.setFlags; rw [FlagUpdate.apply_none]

/-- The shape of DECFSZ and INCFSZ: refused onto PCL, else the result is stored, and the next word skipped if it is 0. -/
theorem skipOp_eq (f : FileAddr) (d : Dest) (op : Byte → Byte) :
    skipOp f d op s =
      if d = .f ∧ resolve f s = .pcl then .refused .skipOntoPcl
      else .next (skipIf (op (s.operand f) == 0x00#8) s.pc (s.stored f d (op (s.operand f)) true)) := by
  unfold skipOp
  by_cases h : d = .f ∧ resolve f s = .pcl
  · rw [if_pos ((destIsPcl_iff s f d).mpr h), if_pos h]
  · rw [if_neg (fun e => h ((destIsPcl_iff s f d).mp e)), if_neg h]
    simp only [afterRead_eq_sequential, writeDest_eq, AluResult.plain, setFlags_none]
    rfl

/-- The shape of BTFSC and BTFSS: nothing is stored, and the next word is skipped if the condition holds. -/
theorem bitTest_eq (f : FileAddr) (cond : Byte → Bool) :
    bitTest f cond s = .next (skipIf (cond (s.operand f)) s.pc (s.afterRead f)) := by
  unfold bitTest
  simp only [afterRead_eq_sequential]
  rfl

/-- An instruction whose meaning is `literalOp` with result `r` and flags `u` completes with them. -/
theorem literalResult_of_literalOp {i : Instr} {r : Byte} {u : FlagUpdate} (he : exec i s = literalOp ⟨r, u⟩ s) :
    LiteralResult i s r u := ⟨_, he, flagsSet_setFlags _ _⟩

/-! ### The operand's location -/

/-- The general purpose register an operand resolves to is one of the device (R22, R99). -/
theorem decodeGpr_range {dev : Device} {n a : Nat} (h : decodeGpr dev n = .gpr a) : gprBottom ≤ a ∧ a ≤ dev.gprTop := by
  unfold decodeGpr at h
  split at h
  · next hn => cases h; exact hn
  · cases h

theorem decodeAddr_range {dev : Device} {a : Byte} {n : Nat} (h : decodeAddr dev a = .gpr n) :
    gprBottom ≤ n ∧ n ≤ dev.gprTop := by
  unfold decodeAddr decodeLoc at h
  split at h <;> first | exact decodeGpr_range h | cases h

theorem resolve_range {f : FileAddr} {n : Nat} (h : resolve f s = .gpr n) :
    gprBottom ≤ n ∧ n ≤ s.cfg.device.gprTop := by
  unfold resolve at h
  split at h <;> exact decodeAddr_range h

end Sys2Proof.Machine
end

