-- ==== Sys2Proof/Laws/Exec.lean ====
section
/-! SUPPORT. What an instruction can do, said once: `exec_shape` sorts the instructions by the shared operation their meaning is,
`exec_frame` says what no instruction changes, `exec_toPd` what changes TO and PD. -/

namespace Sys2Proof.Machine

variable {i : Instr} {s t : State}

/-- Every instruction has the shape `f,d`, is a skip instruction, a bit test, a literal instruction, or is one of the rest. -/
theorem exec_shape (i : Instr) (s : State) :
    (∃ f d op, i.fileDest = some (f, d) ∧ exec i s = fileOp f d op s)
    ∨ (∃ f d op, i.fileDest = some (f, d) ∧ exec i s = skipOp f d op s)
    ∨ (∃ f c, exec i s = bitTest f c s)
    ∨ (∃ r, exec i s = literalOp r s)
    ∨ i = .nop ∨ (∃ k, i = .call k) ∨ i = .clrwdt ∨ (∃ k, i = .goto k) ∨ i = .retfie ∨ (∃ k, i = .retlw k) ∨ i = .ret
    ∨ i = .sleep ∨ i = .option ∨ i = .trisA ∨ i = .trisB := by
  cases i
  case decfsz f d => exact Or.inr (Or.inl ⟨f, d, decByte, rfl, rfl⟩)
  case incfsz f d => exact Or.inr (Or.inl ⟨f, d, incByte, rfl, rfl⟩)
  case btfsc f b => exact Or.inr (Or.inr (Or.inl ⟨f, fun a => !a.getLsbD b.toNat, rfl⟩))
  case btfss f b => exact Or.inr (Or.inr (Or.inl ⟨f, fun a => a.getLsbD b.toNat, rfl⟩))
  case clrf f => exact Or.inl ⟨f, .f, fun _ => .withZ 0x00#8, rfl, rfl⟩
  case movwf f => exact Or.inl ⟨f, .f, fun _ => .plain s.w, rfl, rfl⟩
  case bcf f b => exact Or.inl ⟨f, .f, fun a => .plain (clearBit a b), rfl, rfl⟩
  case bsf f b => exact Or.inl ⟨f, .f, fun a => .plain (setBit a b), rfl, rfl⟩
  case addwf f d => exact Or.inl ⟨f, d, fun a => aluAdd a s.w, rfl, rfl⟩
  case andwf f d => exact Or.inl ⟨f, d, fun a => aluAnd a s.w, rfl, rfl⟩
  case comf f d => exact Or.inl ⟨f, d, fun a => .withZ (~~~a), rfl, rfl⟩
  case decf f d => exact Or.inl ⟨f, d, fun a => .withZ (decByte a), rfl, rfl⟩
  case incf f d => exact Or.inl ⟨f, d, fun a => .withZ (incByte a), rfl, rfl⟩
  case iorwf f d => exact Or.inl ⟨f, d, fun a => aluOr a s.w, rfl, rfl⟩
  case movf f d => exact Or.inl ⟨f, d, fun a => .withZ a, rfl, rfl⟩
  case rlf f d => exact Or.inl ⟨f, d, fun a => aluRlf a s.carry, rfl, rfl⟩
  case rrf f d => exact Or.inl ⟨f, d, fun a => aluRrf a s.carry, rfl, rfl⟩
  case subwf f d => exact Or.inl ⟨f, d, fun a => aluSub a s.w, rfl, rfl⟩
  case swapf f d => exact Or.inl ⟨f, d, fun a => .plain (swapNibbles a), rfl, rfl⟩
  case xorwf f d => exact Or.inl ⟨f, d, fun a => aluXor a s.w, rfl, rfl⟩
  case clrw => exact Or.inr (Or.inr (Or.inr (Or.inl ⟨.withZ 0x00#8, rfl⟩)))
  case addlw k => exact Or.inr (Or.inr (Or.inr (Or.inl ⟨aluAdd s.w k, rfl⟩)))
  case andlw k => exact Or.inr (Or.inr (Or.inr (Or.inl ⟨aluAnd s.w k, rfl⟩)))
  case iorlw k => exact Or.inr (Or.inr (Or.inr (Or.inl ⟨aluOr s.w k, rfl⟩)))
  case movlw k => exact Or.inr (Or.inr (Or.inr (Or.inl ⟨.plain k, rfl⟩)))
  case sublw k => exact Or.inr (Or.inr (Or.inr (Or.inl ⟨aluSub k s.w, rfl⟩)))
  case xorlw k => exact Or.inr (Or.inr (Or.inr (Or.inl ⟨aluXor s.w k, rfl⟩)))
  all_goals simp

/-- The state with every field an instruction may change put to one value. -/
def State.lessExec (s : State) : State :=
  { s.lessFileOp with stk := Vector.replicate 8 0x0000#13, sp := 0b000#3, wdtCnt := 0, sleeping := false }

theorem setFlags_lessExec (s : State) (u : FlagUpdate) : (s.setFlags u).lessExec = s.lessExec := rfl

theorem memRead_lessExec (loc : Loc) (s : State) : (memRead loc s).2.lessExec = s.lessExec := by
  cases loc <;> rfl

theorem memWrite_lessExec (loc : Loc) (v : Byte) (nf : Bool) (s : State) :
    (memWrite loc v nf s).lessExec = s.lessExec := by
  have h : ∀ {a b : State}, a.lessFile = b.lessFile → a.lessExec = b.lessExec :=
    fun h => by have h' := congrArg State.lessExec h; exact h'
  exact h (memWrite_frame s loc v nf)

theorem afterRead_lessExec (f : FileAddr) (s : State) : (s.afterRead f).lessExec = s.lessExec := by
  rw [s.afterRead_frame f]; rfl

theorem stored_lessExec (f : FileAddr) (d : Dest) (r : Byte) (nf : Bool) (s : State) :
    (s.stored f d r nf).lessExec = s.lessExec := by
  cases d with
  | w => exact afterRead_lessExec f s
  | f => exact (memWrite_lessExec _ _ _ _).trans (afterRead_lessExec f s)

theorem skipIf_lessExec (b : Bool) (pc : PAddr) (s : State) : (skipIf b pc s).lessExec = s.lessExec := by
  unfold skipIf; split <;> rfl

/-- SLEEP goes to sleep, or is a NOP where a wake-up stands (R210, R265). -/
theorem execSleep_next (h : execSleep s = .next t) :
    (s.wakePending = true ∧ t = s.sequential)
    ∨ (s.wakePending = false
      ∧ t = { (clearWdt s).sequential with status := withToPd s.status true false, sleeping := true }) := by
  unfold execSleep at h
  split at h
  · next hw => exact Or.inl ⟨hw, (Host.Outcome.next.inj h).symm⟩
  · next hw => exact Or.inr ⟨Bool.eq_false_iff.mpr hw, (Host.Outcome.next.inj h).symm⟩

theorem execTrisA_next (h : execTrisA s = .next t) :
    s.cfg.admitTris = true ∧ t = { s.sequential with trisa := s.w.extractLsb' 0 5 } := by
  unfold execTrisA at h
  split at h
  · next ha => exact ⟨ha, (Host.Outcome.next.inj h).symm⟩
  · cases h

theorem execTrisB_next (h : execTrisB s = .next t) : s.cfg.admitTris = true ∧ t = { s.sequential with trisb := s.w } := by
  unfold execTrisB at h
  split at h
  · next ha => exact ⟨ha, (Host.Outcome.next.inj h).symm⟩
  · cases h

/-- No instruction changes the data EEPROM's cells, the program, the configuration, the pins, the edge memories, nor how
the step stands to resets and interrupts: they are the fields `lessExec` leaves. -/
theorem exec_frame (h : exec i s = .next t) : t.lessExec = s.lessExec := by
  rcases exec_shape i s with ⟨f, d, op, _, e⟩ | ⟨f, d, op, _, e⟩ | ⟨f, c, e⟩ | ⟨r, e⟩ | rest
  · rw [e, fileOp_eq] at h
    cases h
    rw [setFlags_lessExec, stored_lessExec]
  · rw [e, skipOp_eq] at h
    split at h
    · cases h
    · cases h
      rw [skipIf_lessExec, stored_lessExec]
  · rw [e, bitTest_eq] at h
    cases h
    rw [skipIf_lessExec, afterRead_lessExec]
  · rw [e] at h
    cases h
    rfl
  · rcases rest with rfl | ⟨k, rfl⟩ | rfl | ⟨k, rfl⟩ | rfl | ⟨k, rfl⟩ | rfl | rfl | rfl | rfl | rfl
    · cases h; rfl
    · cases h; rfl
    · cases h; rfl
    · cases h; rfl
    · cases h; rfl
    · cases h; rfl
    · cases h; rfl
    · rcases execSleep_next h with ⟨_, rfl⟩ | ⟨_, rfl⟩ <;> rfl
    · cases h; rfl
    · rw [(execTrisA_next h).2]; rfl
    · rw [(execTrisB_next h).2]; rfl

/-- The arrays, the run and the environment after an instruction. -/
theorem exec_arrays (h : exec i s = .next t) :
    t.eeprom = s.eeprom ∧ t.prog = s.prog ∧ t.cfg = s.cfg ∧ t.pins = s.pins ∧ t.pinQueue = s.pinQueue := by
  have e := exec_frame h
  have h1 := congrArg State.eeprom e
  have h2 := congrArg State.prog e
  have h3 := congrArg State.cfg e
  have h4 := congrArg State.pins e
  have h5 := congrArg State.pinQueue e
  exact ⟨h1, h2, h3, h4, h5⟩

/-- How the machine stands to time, resets and interrupts after an instruction. -/
theorem exec_phase (h : exec i s = .next t) :
    t.wdtTimeout = s.wdtTimeout ∧ t.ostLeft = s.ostLeft ∧ t.inReset = s.inReset ∧ t.irqPhase = s.irqPhase
      ∧ t.intPrev = s.intPrev ∧ t.t0Prev = s.t0Prev := by
  have e := exec_frame h
  have h1 := congrArg State.wdtTimeout e
  have h2 := congrArg State.ostLeft e
  have h3 := congrArg State.inReset e
  have h4 := congrArg State.irqPhase e
  have h5 := congrArg State.intPrev e
  have h6 := congrArg State.t0Prev e
  exact ⟨h1, h2, h3, h4, h5, h6⟩

end Sys2Proof.Machine
end

