-- ==== Sys2Proof/Laws/Frames.lean ====
section
/-! SUPPORT. The fields two states agree on when they agree but for a group of fields: with the frame lemmas of Laws/Operands.lean,
Laws/Exec.lean and Laws/Agents.lean they say field by field what an operation leaves alone. -/

namespace Sys2Proof.Machine

variable {a b : State}

/-! ### `State.lessTimer0` -/

theorem lessTimer0_w (h : a.lessTimer0 = b.lessTimer0) : a.w = b.w := by have e := congrArg State.w h; exact e
theorem lessTimer0_pc (h : a.lessTimer0 = b.lessTimer0) : a.pc = b.pc := by have e := congrArg State.pc h; exact e
theorem lessTimer0_stk (h : a.lessTimer0 = b.lessTimer0) : a.stk = b.stk := by have e := congrArg State.stk h; exact e
theorem lessTimer0_sp (h : a.lessTimer0 = b.lessTimer0) : a.sp = b.sp := by have e := congrArg State.sp h; exact e
theorem lessTimer0_status (h : a.lessTimer0 = b.lessTimer0) : a.status = b.status := by have e := congrArg State.status h; exact e
theorem lessTimer0_optionReg (h : a.lessTimer0 = b.lessTimer0) : a.optionReg = b.optionReg := by have e := congrArg State.optionReg h; exact e
theorem lessTimer0_pclath (h : a.lessTimer0 = b.lessTimer0) : a.pclath = b.pclath := by have e := congrArg State.pclath h; exact e
theorem lessTimer0_fsr (h : a.lessTimer0 = b.lessTimer0) : a.fsr = b.fsr := by have e := congrArg State.fsr h; exact e
theorem lessTimer0_lata (h : a.lessTimer0 = b.lessTimer0) : a.lata = b.lata := by have e := congrArg State.lata h; exact e
theorem lessTimer0_trisa (h : a.lessTimer0 = b.lessTimer0) : a.trisa = b.trisa := by have e := congrArg State.trisa h; exact e
theorem lessTimer0_latb (h : a.lessTimer0 = b.lessTimer0) : a.latb = b.latb := by have e := congrArg State.latb h; exact e
theorem lessTimer0_trisb (h : a.lessTimer0 = b.lessTimer0) : a.trisb = b.trisb := by have e := congrArg State.trisb h; exact e
theorem lessTimer0_eecon1 (h : a.lessTimer0 = b.lessTimer0) : a.eecon1 = b.eecon1 := by have e := congrArg State.eecon1 h; exact e
theorem lessTimer0_eedata (h : a.lessTimer0 = b.lessTimer0) : a.eedata = b.eedata := by have e := congrArg State.eedata h; exact e
theorem lessTimer0_eeadr (h : a.lessTimer0 = b.lessTimer0) : a.eeadr = b.eeadr := by have e := congrArg State.eeadr h; exact e
theorem lessTimer0_ram (h : a.lessTimer0 = b.lessTimer0) : a.ram = b.ram := by have e := congrArg State.ram h; exact e
theorem lessTimer0_eeprom (h : a.lessTimer0 = b.lessTimer0) : a.eeprom = b.eeprom := by have e := congrArg State.eeprom h; exact e
theorem lessTimer0_prog (h : a.lessTimer0 = b.lessTimer0) : a.prog = b.prog := by have e := congrArg State.prog h; exact e
theorem lessTimer0_rbold (h : a.lessTimer0 = b.lessTimer0) : a.rbold = b.rbold := by have e := congrArg State.rbold h; exact e
theorem lessTimer0_intPrev (h : a.lessTimer0 = b.lessTimer0) : a.intPrev = b.intPrev := by have e := congrArg State.intPrev h; exact e
theorem lessTimer0_wdtCnt (h : a.lessTimer0 = b.lessTimer0) : a.wdtCnt = b.wdtCnt := by have e := congrArg State.wdtCnt h; exact e
theorem lessTimer0_wdtTimeout (h : a.lessTimer0 = b.lessTimer0) : a.wdtTimeout = b.wdtTimeout := by have e := congrArg State.wdtTimeout h; exact e
theorem lessTimer0_eeSeq (h : a.lessTimer0 = b.lessTimer0) : a.eeSeq = b.eeSeq := by have e := congrArg State.eeSeq h; exact e
theorem lessTimer0_eeBusy (h : a.lessTimer0 = b.lessTimer0) : a.eeBusy = b.eeBusy := by have e := congrArg State.eeBusy h; exact e
theorem lessTimer0_eeWAddr (h : a.lessTimer0 = b.lessTimer0) : a.eeWAddr = b.eeWAddr := by have e := congrArg State.eeWAddr h; exact e
theorem lessTimer0_eeWData (h : a.lessTimer0 = b.lessTimer0) : a.eeWData = b.eeWData := by have e := congrArg State.eeWData h; exact e
theorem lessTimer0_eeTimer (h : a.lessTimer0 = b.lessTimer0) : a.eeTimer = b.eeTimer := by have e := congrArg State.eeTimer h; exact e
theorem lessTimer0_sleeping (h : a.lessTimer0 = b.lessTimer0) : a.sleeping = b.sleeping := by have e := congrArg State.sleeping h; exact e
theorem lessTimer0_ostLeft (h : a.lessTimer0 = b.lessTimer0) : a.ostLeft = b.ostLeft := by have e := congrArg State.ostLeft h; exact e
theorem lessTimer0_inReset (h : a.lessTimer0 = b.lessTimer0) : a.inReset = b.inReset := by have e := congrArg State.inReset h; exact e
theorem lessTimer0_irqPhase (h : a.lessTimer0 = b.lessTimer0) : a.irqPhase = b.irqPhase := by have e := congrArg State.irqPhase h; exact e
theorem lessTimer0_cycles (h : a.lessTimer0 = b.lessTimer0) : a.cycles = b.cycles := by have e := congrArg State.cycles h; exact e
theorem lessTimer0_pins (h : a.lessTimer0 = b.lessTimer0) : a.pins = b.pins := by have e := congrArg State.pins h; exact e
theorem lessTimer0_pinQueue (h : a.lessTimer0 = b.lessTimer0) : a.pinQueue = b.pinQueue := by have e := congrArg State.pinQueue h; exact e
theorem lessTimer0_cfg (h : a.lessTimer0 = b.lessTimer0) : a.cfg = b.cfg := by have e := congrArg State.cfg h; exact e
theorem lessTimer0_draws (h : a.lessTimer0 = b.lessTimer0) : a.draws = b.draws := by have e := congrArg State.draws h; exact e

/-! ### `State.lessEeWrite` -/

theorem lessEeWrite_w (h : a.lessEeWrite = b.lessEeWrite) : a.w = b.w := by have e := congrArg State.w h; exact e
theorem lessEeWrite_pc (h : a.lessEeWrite = b.lessEeWrite) : a.pc = b.pc := by have e := congrArg State.pc h; exact e
theorem lessEeWrite_stk (h : a.lessEeWrite = b.lessEeWrite) : a.stk = b.stk := by have e := congrArg State.stk h; exact e
theorem lessEeWrite_sp (h : a.lessEeWrite = b.lessEeWrite) : a.sp = b.sp := by have e := congrArg State.sp h; exact e
theorem lessEeWrite_status (h : a.lessEeWrite = b.lessEeWrite) : a.status = b.status := by have e := congrArg State.status h; exact e
theorem lessEeWrite_optionReg (h : a.lessEeWrite = b.lessEeWrite) : a.optionReg = b.optionReg := by have e := congrArg State.optionReg h; exact e
theorem lessEeWrite_intcon (h : a.lessEeWrite = b.lessEeWrite) : a.intcon = b.intcon := by have e := congrArg State.intcon h; exact e
theorem lessEeWrite_pclath (h : a.lessEeWrite = b.lessEeWrite) : a.pclath = b.pclath := by have e := congrArg State.pclath h; exact e
theorem lessEeWrite_fsr (h : a.lessEeWrite = b.lessEeWrite) : a.fsr = b.fsr := by have e := congrArg State.fsr h; exact e
theorem lessEeWrite_tmr0 (h : a.lessEeWrite = b.lessEeWrite) : a.tmr0 = b.tmr0 := by have e := congrArg State.tmr0 h; exact e
theorem lessEeWrite_lata (h : a.lessEeWrite = b.lessEeWrite) : a.lata = b.lata := by have e := congrArg State.lata h; exact e
theorem lessEeWrite_trisa (h : a.lessEeWrite = b.lessEeWrite) : a.trisa = b.trisa := by have e := congrArg State.trisa h; exact e
theorem lessEeWrite_latb (h : a.lessEeWrite = b.lessEeWrite) : a.latb = b.latb := by have e := congrArg State.latb h; exact e
theorem lessEeWrite_trisb (h : a.lessEeWrite = b.lessEeWrite) : a.trisb = b.trisb := by have e := congrArg State.trisb h; exact e
theorem lessEeWrite_eedata (h : a.lessEeWrite = b.lessEeWrite) : a.eedata = b.eedata := by have e := congrArg State.eedata h; exact e
theorem lessEeWrite_eeadr (h : a.lessEeWrite = b.lessEeWrite) : a.eeadr = b.eeadr := by have e := congrArg State.eeadr h; exact e
theorem lessEeWrite_ram (h : a.lessEeWrite = b.lessEeWrite) : a.ram = b.ram := by have e := congrArg State.ram h; exact e
theorem lessEeWrite_prog (h : a.lessEeWrite = b.lessEeWrite) : a.prog = b.prog := by have e := congrArg State.prog h; exact e
theorem lessEeWrite_rbold (h : a.lessEeWrite = b.lessEeWrite) : a.rbold = b.rbold := by have e := congrArg State.rbold h; exact e
theorem lessEeWrite_intPrev (h : a.lessEeWrite = b.lessEeWrite) : a.intPrev = b.intPrev := by have e := congrArg State.intPrev h; exact e
theorem lessEeWrite_t0Prev (h : a.lessEeWrite = b.lessEeWrite) : a.t0Prev = b.t0Prev := by have e := congrArg State.t0Prev h; exact e
theorem lessEeWrite_presc (h : a.lessEeWrite = b.lessEeWrite) : a.presc = b.presc := by have e := congrArg State.presc h; exact e
theorem lessEeWrite_t0Sync (h : a.lessEeWrite = b.lessEeWrite) : a.t0Sync = b.t0Sync := by have e := congrArg State.t0Sync h; exact e
theorem lessEeWrite_t0Skip (h : a.lessEeWrite = b.lessEeWrite) : a.t0Skip = b.t0Skip := by have e := congrArg State.t0Skip h; exact e
theorem lessEeWrite_wdtCnt (h : a.lessEeWrite = b.lessEeWrite) : a.wdtCnt = b.wdtCnt := by have e := congrArg State.wdtCnt h; exact e
theorem lessEeWrite_wdtTimeout (h : a.lessEeWrite = b.lessEeWrite) : a.wdtTimeout = b.wdtTimeout := by have e := congrArg State.wdtTimeout h; exact e
theorem lessEeWrite_eeSeq (h : a.lessEeWrite = b.lessEeWrite) : a.eeSeq = b.eeSeq := by have e := congrArg State.eeSeq h; exact e
theorem lessEeWrite_eeWAddr (h : a.lessEeWrite = b.lessEeWrite) : a.eeWAddr = b.eeWAddr := by have e := congrArg State.eeWAddr h; exact e
theorem lessEeWrite_eeWData (h : a.lessEeWrite = b.lessEeWrite) : a.eeWData = b.eeWData := by have e := congrArg State.eeWData h; exact e
theorem lessEeWrite_sleeping (h : a.lessEeWrite = b.lessEeWrite) : a.sleeping = b.sleeping := by have e := congrArg State.sleeping h; exact e
theorem lessEeWrite_ostLeft (h : a.lessEeWrite = b.lessEeWrite) : a.ostLeft = b.ostLeft := by have e := congrArg State.ostLeft h; exact e
theorem lessEeWrite_inReset (h : a.lessEeWrite = b.lessEeWrite) : a.inReset = b.inReset := by have e := congrArg State.inReset h; exact e
theorem lessEeWrite_irqPhase (h : a.lessEeWrite = b.lessEeWrite) : a.irqPhase = b.irqPhase := by have e := congrArg State.irqPhase h; exact e
theorem lessEeWrite_cycles (h : a.lessEeWrite = b.lessEeWrite) : a.cycles = b.cycles := by have e := congrArg State.cycles h; exact e
theorem lessEeWrite_pins (h : a.lessEeWrite = b.lessEeWrite) : a.pins = b.pins := by have e := congrArg State.pins h; exact e
theorem lessEeWrite_pinQueue (h : a.lessEeWrite = b.lessEeWrite) : a.pinQueue = b.pinQueue := by have e := congrArg State.pinQueue h; exact e
theorem lessEeWrite_cfg (h : a.lessEeWrite = b.lessEeWrite) : a.cfg = b.cfg := by have e := congrArg State.cfg h; exact e
theorem lessEeWrite_draws (h : a.lessEeWrite = b.lessEeWrite) : a.draws = b.draws := by have e := congrArg State.draws h; exact e

/-! ### `State.lessWdt` -/

theorem lessWdt_w (h : a.lessWdt = b.lessWdt) : a.w = b.w := by have e := congrArg State.w h; exact e
theorem lessWdt_pc (h : a.lessWdt = b.lessWdt) : a.pc = b.pc := by have e := congrArg State.pc h; exact e
theorem lessWdt_stk (h : a.lessWdt = b.lessWdt) : a.stk = b.stk := by have e := congrArg State.stk h; exact e
theorem lessWdt_sp (h : a.lessWdt = b.lessWdt) : a.sp = b.sp := by have e := congrArg State.sp h; exact e
theorem lessWdt_optionReg (h : a.lessWdt = b.lessWdt) : a.optionReg = b.optionReg := by have e := congrArg State.optionReg h; exact e
theorem lessWdt_intcon (h : a.lessWdt = b.lessWdt) : a.intcon = b.intcon := by have e := congrArg State.intcon h; exact e
theorem lessWdt_pclath (h : a.lessWdt = b.lessWdt) : a.pclath = b.pclath := by have e := congrArg State.pclath h; exact e
theorem lessWdt_fsr (h : a.lessWdt = b.lessWdt) : a.fsr = b.fsr := by have e := congrArg State.fsr h; exact e
theorem lessWdt_tmr0 (h : a.lessWdt = b.lessWdt) : a.tmr0 = b.tmr0 := by have e := congrArg State.tmr0 h; exact e
theorem lessWdt_lata (h : a.lessWdt = b.lessWdt) : a.lata = b.lata := by have e := congrArg State.lata h; exact e
theorem lessWdt_trisa (h : a.lessWdt = b.lessWdt) : a.trisa = b.trisa := by have e := congrArg State.trisa h; exact e
theorem lessWdt_latb (h : a.lessWdt = b.lessWdt) : a.latb = b.latb := by have e := congrArg State.latb h; exact e
theorem lessWdt_trisb (h : a.lessWdt = b.lessWdt) : a.trisb = b.trisb := by have e := congrArg State.trisb h; exact e
theorem lessWdt_eecon1 (h : a.lessWdt = b.lessWdt) : a.eecon1 = b.eecon1 := by have e := congrArg State.eecon1 h; exact e
theorem lessWdt_eedata (h : a.lessWdt = b.lessWdt) : a.eedata = b.eedata := by have e := congrArg State.eedata h; exact e
theorem lessWdt_eeadr (h : a.lessWdt = b.lessWdt) : a.eeadr = b.eeadr := by have e := congrArg State.eeadr h; exact e
theorem lessWdt_ram (h : a.lessWdt = b.lessWdt) : a.ram = b.ram := by have e := congrArg State.ram h; exact e
theorem lessWdt_eeprom (h : a.lessWdt = b.lessWdt) : a.eeprom = b.eeprom := by have e := congrArg State.eeprom h; exact e
theorem lessWdt_prog (h : a.lessWdt = b.lessWdt) : a.prog = b.prog := by have e := congrArg State.prog h; exact e
theorem lessWdt_rbold (h : a.lessWdt = b.lessWdt) : a.rbold = b.rbold := by have e := congrArg State.rbold h; exact e
theorem lessWdt_intPrev (h : a.lessWdt = b.lessWdt) : a.intPrev = b.intPrev := by have e := congrArg State.intPrev h; exact e
theorem lessWdt_t0Sync (h : a.lessWdt = b.lessWdt) : a.t0Sync = b.t0Sync := by have e := congrArg State.t0Sync h; exact e
theorem lessWdt_t0Skip (h : a.lessWdt = b.lessWdt) : a.t0Skip = b.t0Skip := by have e := congrArg State.t0Skip h; exact e
theorem lessWdt_eeSeq (h : a.lessWdt = b.lessWdt) : a.eeSeq = b.eeSeq := by have e := congrArg State.eeSeq h; exact e
theorem lessWdt_eeBusy (h : a.lessWdt = b.lessWdt) : a.eeBusy = b.eeBusy := by have e := congrArg State.eeBusy h; exact e
theorem lessWdt_eeWAddr (h : a.lessWdt = b.lessWdt) : a.eeWAddr = b.eeWAddr := by have e := congrArg State.eeWAddr h; exact e
theorem lessWdt_eeWData (h : a.lessWdt = b.lessWdt) : a.eeWData = b.eeWData := by have e := congrArg State.eeWData h; exact e
theorem lessWdt_eeTimer (h : a.lessWdt = b.lessWdt) : a.eeTimer = b.eeTimer := by have e := congrArg State.eeTimer h; exact e
theorem lessWdt_inReset (h : a.lessWdt = b.lessWdt) : a.inReset = b.inReset := by have e := congrArg State.inReset h; exact e
theorem lessWdt_irqPhase (h : a.lessWdt = b.lessWdt) : a.irqPhase = b.irqPhase := by have e := congrArg State.irqPhase h; exact e
theorem lessWdt_cycles (h : a.lessWdt = b.lessWdt) : a.cycles = b.cycles := by have e := congrArg State.cycles h; exact e
theorem lessWdt_pins (h : a.lessWdt = b.lessWdt) : a.pins = b.pins := by have e := congrArg State.pins h; exact e
theorem lessWdt_pinQueue (h : a.lessWdt = b.lessWdt) : a.pinQueue = b.pinQueue := by have e := congrArg State.pinQueue h; exact e
theorem lessWdt_cfg (h : a.lessWdt = b.lessWdt) : a.cfg = b.cfg := by have e := congrArg State.cfg h; exact e
theorem lessWdt_draws (h : a.lessWdt = b.lessWdt) : a.draws = b.draws := by have e := congrArg State.draws h; exact e

/-! ### `State.lessTick` -/

theorem lessTick_w (h : a.lessTick = b.lessTick) : a.w = b.w := by have e := congrArg State.w h; exact e
theorem lessTick_pc (h : a.lessTick = b.lessTick) : a.pc = b.pc := by have e := congrArg State.pc h; exact e
theorem lessTick_stk (h : a.lessTick = b.lessTick) : a.stk = b.stk := by have e := congrArg State.stk h; exact e
theorem lessTick_sp (h : a.lessTick = b.lessTick) : a.sp = b.sp := by have e := congrArg State.sp h; exact e
theorem lessTick_optionReg (h : a.lessTick = b.lessTick) : a.optionReg = b.optionReg := by have e := congrArg State.optionReg h; exact e
theorem lessTick_pclath (h : a.lessTick = b.lessTick) : a.pclath = b.pclath := by have e := congrArg State.pclath h; exact e
theorem lessTick_fsr (h : a.lessTick = b.lessTick) : a.fsr = b.fsr := by have e := congrArg State.fsr h; exact e
theorem lessTick_lata (h : a.lessTick = b.lessTick) : a.lata = b.lata := by have e := congrArg State.lata h; exact e
theorem lessTick_trisa (h : a.lessTick = b.lessTick) : a.trisa = b.trisa := by have e := congrArg State.trisa h; exact e
theorem lessTick_latb (h : a.lessTick = b.lessTick) : a.latb = b.latb := by have e := congrArg State.latb h; exact e
theorem lessTick_trisb (h : a.lessTick = b.lessTick) : a.trisb = b.trisb := by have e := congrArg State.trisb h; exact e
theorem lessTick_eedata (h : a.lessTick = b.lessTick) : a.eedata = b.eedata := by have e := congrArg State.eedata h; exact e
theorem lessTick_eeadr (h : a.lessTick = b.lessTick) : a.eeadr = b.eeadr := by have e := congrArg State.eeadr h; exact e
theorem lessTick_ram (h : a.lessTick = b.lessTick) : a.ram = b.ram := by have e := congrArg State.ram h; exact e
theorem lessTick_prog (h : a.lessTick = b.lessTick) : a.prog = b.prog := by have e := congrArg State.prog h; exact e
theorem lessTick_rbold (h : a.lessTick = b.lessTick) : a.rbold = b.rbold := by have e := congrArg State.rbold h; exact e
theorem lessTick_eeSeq (h : a.lessTick = b.lessTick) : a.eeSeq = b.eeSeq := by have e := congrArg State.eeSeq h; exact e
theorem lessTick_eeWAddr (h : a.lessTick = b.lessTick) : a.eeWAddr = b.eeWAddr := by have e := congrArg State.eeWAddr h; exact e
theorem lessTick_eeWData (h : a.lessTick = b.lessTick) : a.eeWData = b.eeWData := by have e := congrArg State.eeWData h; exact e
theorem lessTick_inReset (h : a.lessTick = b.lessTick) : a.inReset = b.inReset := by have e := congrArg State.inReset h; exact e
theorem lessTick_irqPhase (h : a.lessTick = b.lessTick) : a.irqPhase = b.irqPhase := by have e := congrArg State.irqPhase h; exact e
theorem lessTick_cycles (h : a.lessTick = b.lessTick) : a.cycles = b.cycles := by have e := congrArg State.cycles h; exact e
theorem lessTick_cfg (h : a.lessTick = b.lessTick) : a.cfg = b.cfg := by have e := congrArg State.cfg h; exact e

/-! ### `State.lessFile` -/

theorem lessFile_w (h : a.lessFile = b.lessFile) : a.w = b.w := by have e := congrArg State.w h; exact e
theorem lessFile_stk (h : a.lessFile = b.lessFile) : a.stk = b.stk := by have e := congrArg State.stk h; exact e
theorem lessFile_sp (h : a.lessFile = b.lessFile) : a.sp = b.sp := by have e := congrArg State.sp h; exact e
theorem lessFile_eeprom (h : a.lessFile = b.lessFile) : a.eeprom = b.eeprom := by have e := congrArg State.eeprom h; exact e
theorem lessFile_prog (h : a.lessFile = b.lessFile) : a.prog = b.prog := by have e := congrArg State.prog h; exact e
theorem lessFile_rbold (h : a.lessFile = b.lessFile) : a.rbold = b.rbold := by have e := congrArg State.rbold h; exact e
theorem lessFile_intPrev (h : a.lessFile = b.lessFile) : a.intPrev = b.intPrev := by have e := congrArg State.intPrev h; exact e
theorem lessFile_t0Prev (h : a.lessFile = b.lessFile) : a.t0Prev = b.t0Prev := by have e := congrArg State.t0Prev h; exact e
theorem lessFile_wdtCnt (h : a.lessFile = b.lessFile) : a.wdtCnt = b.wdtCnt := by have e := congrArg State.wdtCnt h; exact e
theorem lessFile_wdtTimeout (h : a.lessFile = b.lessFile) : a.wdtTimeout = b.wdtTimeout := by have e := congrArg State.wdtTimeout h; exact e
theorem lessFile_sleeping (h : a.lessFile = b.lessFile) : a.sleeping = b.sleeping := by have e := congrArg State.sleeping h; exact e
theorem lessFile_ostLeft (h : a.lessFile = b.lessFile) : a.ostLeft = b.ostLeft := by have e := congrArg State.ostLeft h; exact e
theorem lessFile_inReset (h : a.lessFile = b.lessFile) : a.inReset = b.inReset := by have e := congrArg State.inReset h; exact e
theorem lessFile_irqPhase (h : a.lessFile = b.lessFile) : a.irqPhase = b.irqPhase := by have e := congrArg State.irqPhase h; exact e
theorem lessFile_pins (h : a.lessFile = b.lessFile) : a.pins = b.pins := by have e := congrArg State.pins h; exact e
theorem lessFile_pinQueue (h : a.lessFile = b.lessFile) : a.pinQueue = b.pinQueue := by have e := congrArg State.pinQueue h; exact e
theorem lessFile_cfg (h : a.lessFile = b.lessFile) : a.cfg = b.cfg := by have e := congrArg State.cfg h; exact e

/-! ### `State.lessExec` -/

theorem lessExec_eeprom (h : a.lessExec = b.lessExec) : a.eeprom = b.eeprom := by have e := congrArg State.eeprom h; exact e
theorem lessExec_prog (h : a.lessExec = b.lessExec) : a.prog = b.prog := by have e := congrArg State.prog h; exact e
theorem lessExec_intPrev (h : a.lessExec = b.lessExec) : a.intPrev = b.intPrev := by have e := congrArg State.intPrev h; exact e
theorem lessExec_t0Prev (h : a.lessExec = b.lessExec) : a.t0Prev = b.t0Prev := by have e := congrArg State.t0Prev h; exact e
theorem lessExec_wdtTimeout (h : a.lessExec = b.lessExec) : a.wdtTimeout = b.wdtTimeout := by have e := congrArg State.wdtTimeout h; exact e
theorem lessExec_ostLeft (h : a.lessExec = b.lessExec) : a.ostLeft = b.ostLeft := by have e := congrArg State.ostLeft h; exact e
theorem lessExec_inReset (h : a.lessExec = b.lessExec) : a.inReset = b.inReset := by have e := congrArg State.inReset h; exact e
theorem lessExec_irqPhase (h : a.lessExec = b.lessExec) : a.irqPhase = b.irqPhase := by have e := congrArg State.irqPhase h; exact e
theorem lessExec_pins (h : a.lessExec = b.lessExec) : a.pins = b.pins := by have e := congrArg State.pins h; exact e
theorem lessExec_pinQueue (h : a.lessExec = b.lessExec) : a.pinQueue = b.pinQueue := by have e := congrArg State.pinQueue h; exact e
theorem lessExec_cfg (h : a.lessExec = b.lessExec) : a.cfg = b.cfg := by have e := congrArg State.cfg h; exact e

end Sys2Proof.Machine
end

