-- ==== Sys2Proof/Laws/PerInstr.lean ====
section
/-! SUPPORT. Statements about every instruction, one lemma per constructor. `EncodesItsRow`: the encoder's word matches the mask and
match value that R128 prints for the instruction's row. -/

namespace Sys2Proof.Laws

theorem append_and_append {n m : Nat} (a c : BitVec n) (b d : BitVec m) :
    (a ++ b) &&& (c ++ d) = (a &&& c) ++ (b &&& d) := by
  apply BitVec.eq_of_getLsbD_eq
  intro i _
  simp only [BitVec.getLsbD_and, BitVec.getLsbD_append]
  split <;> rfl

theorem formatB_and (op m : BitVec 6) (d : Dest) (f : FileAddr) :
    formatB op d f &&& (m ++ 0#1 ++ 0#7 : InstrWord) = ((op &&& m) ++ 0#1 ++ 0#7 : InstrWord) := by
  show (op ++ d.bit ++ f) &&& (m ++ 0#1 ++ 0#7) = _
  rw [append_and_append, append_and_append, BitVec.and_zero, BitVec.and_zero]

theorem formatB_and_d (op m : BitVec 6) (f : FileAddr) :
    formatB op .f f &&& (m ++ 1#1 ++ 0#7 : InstrWord) = ((op &&& m) ++ 1#1 ++ 0#7 : InstrWord) := by
  show (op ++ Dest.f.bit ++ f) &&& (m ++ 1#1 ++ 0#7) = _
  rw [append_and_append, append_and_append, BitVec.and_zero]
  rfl

theorem formatT_and (op m : BitVec 4) (b : BitNo) (f : FileAddr) :
    formatT op b f &&& (m ++ 0#3 ++ 0#7 : InstrWord) = ((op &&& m) ++ 0#3 ++ 0#7 : InstrWord) := by
  show (op ++ b ++ f) &&& (m ++ 0#3 ++ 0#7) = _
  rw [append_and_append, append_and_append, BitVec.and_zero, BitVec.and_zero]

theorem formatL_and (op m : BitVec 6) (k : Byte) :
    formatL op k &&& (m ++ 0#8 : InstrWord) = ((op &&& m) ++ 0#8 : InstrWord) := by
  show (op ++ k) &&& (m ++ 0#8) = _
  rw [append_and_append, BitVec.and_zero]

theorem formatJ_and (op m : BitVec 3) (k : JumpLit) :
    formatJ op k &&& (m ++ 0#11 : InstrWord) = ((op &&& m) ++ 0#11 : InstrWord) := by
  show (op ++ k) &&& (m ++ 0#11) = _
  rw [append_and_append, BitVec.and_zero]

/-- The encoder's word matches the row of R128. -/
def EncodesItsRow.Statement : Instr → Prop := fun i => encode i &&& i.row.mask = i.row.value

theorem EncodesItsRow.addwf (f : FileAddr) (d : Dest) : EncodesItsRow.Statement (.addwf f d) := formatB_and 0b000111#6 0b111111#6 d f
theorem EncodesItsRow.andwf (f : FileAddr) (d : Dest) : EncodesItsRow.Statement (.andwf f d) := formatB_and 0b000101#6 0b111111#6 d f
theorem EncodesItsRow.clrf (f : FileAddr) : EncodesItsRow.Statement (.clrf f) := formatB_and_d 0b000001#6 0b111111#6 f
theorem EncodesItsRow.clrw : EncodesItsRow.Statement .clrw := rfl
theorem EncodesItsRow.comf (f : FileAddr) (d : Dest) : EncodesItsRow.Statement (.comf f d) := formatB_and 0b001001#6 0b111111#6 d f
theorem EncodesItsRow.decf (f : FileAddr) (d : Dest) : EncodesItsRow.Statement (.decf f d) := formatB_and 0b000011#6 0b111111#6 d f
theorem EncodesItsRow.decfsz (f : FileAddr) (d : Dest) : EncodesItsRow.Statement (.decfsz f d) := formatB_and 0b001011#6 0b111111#6 d f
theorem EncodesItsRow.incf (f : FileAddr) (d : Dest) : EncodesItsRow.Statement (.incf f d) := formatB_and 0b001010#6 0b111111#6 d f
theorem EncodesItsRow.incfsz (f : FileAddr) (d : Dest) : EncodesItsRow.Statement (.incfsz f d) := formatB_and 0b001111#6 0b111111#6 d f
theorem EncodesItsRow.iorwf (f : FileAddr) (d : Dest) : EncodesItsRow.Statement (.iorwf f d) := formatB_and 0b000100#6 0b111111#6 d f
theorem EncodesItsRow.movf (f : FileAddr) (d : Dest) : EncodesItsRow.Statement (.movf f d) := formatB_and 0b001000#6 0b111111#6 d f
theorem EncodesItsRow.movwf (f : FileAddr) : EncodesItsRow.Statement (.movwf f) := formatB_and_d 0b000000#6 0b111111#6 f
theorem EncodesItsRow.nop : EncodesItsRow.Statement .nop := rfl
theorem EncodesItsRow.rlf (f : FileAddr) (d : Dest) : EncodesItsRow.Statement (.rlf f d) := formatB_and 0b001101#6 0b111111#6 d f
theorem EncodesItsRow.rrf (f : FileAddr) (d : Dest) : EncodesItsRow.Statement (.rrf f d) := formatB_and 0b001100#6 0b111111#6 d f
theorem EncodesItsRow.subwf (f : FileAddr) (d : Dest) : EncodesItsRow.Statement (.subwf f d) := formatB_and 0b000010#6 0b111111#6 d f
theorem EncodesItsRow.swapf (f : FileAddr) (d : Dest) : EncodesItsRow.Statement (.swapf f d) := formatB_and 0b001110#6 0b111111#6 d f
theorem EncodesItsRow.xorwf (f : FileAddr) (d : Dest) : EncodesItsRow.Statement (.xorwf f d) := formatB_and 0b000110#6 0b111111#6 d f
theorem EncodesItsRow.bcf (f : FileAddr) (b : BitNo) : EncodesItsRow.Statement (.bcf f b) := formatT_and 0b0100#4 0b1111#4 b f
theorem EncodesItsRow.bsf (f : FileAddr) (b : BitNo) : EncodesItsRow.Statement (.bsf f b) := formatT_and 0b0101#4 0b1111#4 b f
theorem EncodesItsRow.btfsc (f : FileAddr) (b : BitNo) : EncodesItsRow.Statement (.btfsc f b) := formatT_and 0b0110#4 0b1111#4 b f
theorem EncodesItsRow.btfss (f : FileAddr) (b : BitNo) : EncodesItsRow.Statement (.btfss f b) := formatT_and 0b0111#4 0b1111#4 b f
theorem EncodesItsRow.addlw (k : Byte) : EncodesItsRow.Statement (.addlw k) := formatL_and 0b111110#6 0b111110#6 k
theorem EncodesItsRow.andlw (k : Byte) : EncodesItsRow.Statement (.andlw k) := formatL_and 0b111001#6 0b111111#6 k
theorem EncodesItsRow.call (k : JumpLit) : EncodesItsRow.Statement (.call k) := formatJ_and 0b100#3 0b111#3 k
theorem EncodesItsRow.clrwdt : EncodesItsRow.Statement .clrwdt := rfl
theorem EncodesItsRow.goto (k : JumpLit) : EncodesItsRow.Statement (.goto k) := formatJ_and 0b101#3 0b111#3 k
theorem EncodesItsRow.iorlw (k : Byte) : EncodesItsRow.Statement (.iorlw k) := formatL_and 0b111000#6 0b111111#6 k
theorem EncodesItsRow.movlw (k : Byte) : EncodesItsRow.Statement (.movlw k) := formatL_and 0b110000#6 0b111100#6 k
theorem EncodesItsRow.retfie : EncodesItsRow.Statement .retfie := rfl
theorem EncodesItsRow.retlw (k : Byte) : EncodesItsRow.Statement (.retlw k) := formatL_and 0b110100#6 0b111100#6 k
theorem EncodesItsRow.ret : EncodesItsRow.Statement .ret := rfl
theorem EncodesItsRow.sleep : EncodesItsRow.Statement .sleep := rfl
theorem EncodesItsRow.sublw (k : Byte) : EncodesItsRow.Statement (.sublw k) := formatL_and 0b111100#6 0b111110#6 k
theorem EncodesItsRow.xorlw (k : Byte) : EncodesItsRow.Statement (.xorlw k) := formatL_and 0b111010#6 0b111111#6 k
theorem EncodesItsRow.option : EncodesItsRow.Statement .option := rfl
theorem EncodesItsRow.trisA : EncodesItsRow.Statement .trisA := rfl
theorem EncodesItsRow.trisB : EncodesItsRow.Statement .trisB := rfl

end Sys2Proof.Laws
end

