-- ==== Sys2Proof/Laws/Reset.lean ====
section
/-! SUPPORT. The resets, bit by bit: STATUS, INTCON and EECON1 after `warmReset`, and the data EEPROM under it. -/

namespace Sys2Proof.Machine

variable {s : State} {k : ResetKind}

/-- Every reset but the Power-on Reset is `warmReset` alone. -/
theorem deviceReset_warm (h : k ≠ .por) : deviceReset k s = warmReset k s := by
  cases k
  · exact absurd rfl h
  · rfl
  · rfl
  · rfl

/-- STATUS[7:5] after a reset (R342). -/
theorem warmReset_status_high {n : Nat} (h : 5 ≤ n) : (warmReset k s).status.getLsbD n = false := by
  show (@BitVec.getLsbD (3 + 1 + 1 + 3) (_ ++ _) n) = _
  simp only [BitVec.getLsbD_append, BitVec.getLsbD_ofBool]
  rw [if_neg (by omega), if_neg (by omega), if_neg (by omega)]
  simp

/-- Z, DC and C after a reset (R344 column B). -/
theorem warmReset_status_low {n : Nat} (h : n < 3) : (warmReset k s).status.getLsbD n = s.status.getLsbD n := by
  show (@BitVec.getLsbD (3 + 1 + 1 + 3) (_ ++ _) n) = _
  simp only [BitVec.getLsbD_append, BitVec.getLsbD_extractLsb']
  rw [if_pos h]
  simp [h]

/-- TO after a reset (R343). -/
theorem warmReset_timeOut : (warmReset k s).timeOut = (resetToPd k s.status).1 := by
  show (@BitVec.getLsbD (3 + 1 + 1 + 3) (_ ++ _) 4) = _
  simp only [BitVec.getLsbD_append, BitVec.getLsbD_ofBool]
  simp

/-- PD after a reset (R343). -/
theorem warmReset_powerDown : (warmReset k s).powerDown = (resetToPd k s.status).2 := by
  show (@BitVec.getLsbD (3 + 1 + 1 + 3) (_ ++ _) 3) = _
  simp only [BitVec.getLsbD_append, BitVec.getLsbD_ofBool]
  simp

/-- INTCON[7:1] after a reset (R344). -/
theorem warmReset_intcon_high {n : Nat} (h : 1 ≤ n) : (warmReset k s).intcon.getLsbD n = false := by
  show (@BitVec.getLsbD (7 + 1) (_ ++ _) n) = _
  simp only [BitVec.getLsbD_append]
  rw [if_neg (by omega)]
  simp

/-- EECON1 after a reset, but for WRERR (R344, R346). -/
theorem warmReset_eecon1 {n : Nat} (h : n ≠ 3) : (warmReset k s).eecon1.getLsbD n = false := by
  show (@BitVec.getLsbD (1 + 1 + 3) (_ ++ _) n) = _
  simp only [BitVec.getLsbD_append, BitVec.getLsbD_ofBool]
  by_cases h3 : n < 3
  · simp [h3]
  · rw [if_neg h3, if_neg (by omega)]
    simp

end Sys2Proof.Machine
end

