-- ==== Sys2Proof/Laws/Run.lean ====
section
/-! SUPPORT. What a step of the machine can be (R231), said once: the provers take a step apart with `step_cases`. -/

namespace Sys2Proof.Machine

variable {s t : State}

/-- Only an instruction that completes makes `afterExec` answer a next state. -/
theorem afterExec_next {r : Result} (h : afterExec r = .next t) : ∃ u, r = .next u ∧ t = tick u.cycles u := by
  cases r with
  | next u => exact ⟨u, rfl, by simpa [afterExec] using h.symm⟩
  | fault e => exact absurd h (by simp [afterExec])
  | refused e => exact absurd h (by simp [afterExec])

/-- A step that runs an instruction: it decodes, `exec` completes, and the agents advance by its cycles. -/
theorem runInstruction_next (h : runInstruction s = .next t) :
    ∃ i u, decode s.fetch = .ok i ∧ exec i s = .next u ∧ t = tick u.cycles u := by
  unfold runInstruction at h
  split at h
  · next i hi =>
    obtain ⟨u, hu, ht⟩ := afterExec_next h
    exact ⟨i, u, hi, hu, ht⟩
  · exact absurd h (by simp)

/-- At a boundary either the interrupt is taken, because it is requested, or an instruction runs. -/
theorem boundaryStep_next (h : boundaryStep s = .next t) :
    (s.irqRequest = true ∧ t = takeInterrupt s)
    ∨ ∃ ph i u, decode s.fetch = .ok i ∧ exec i { s with irqPhase := ph } = .next u ∧ t = tick u.cycles u := by
  have run : ∀ ph, runInstruction { s with irqPhase := ph } = .next t →
      ∃ ph i u, decode s.fetch = .ok i ∧ exec i { s with irqPhase := ph } = .next u ∧ t = tick u.cycles u := by
    intro ph hr
    obtain ⟨i, u, hd, he, ht⟩ := runInstruction_next hr
    exact ⟨ph, i, u, hd, he, ht⟩
  unfold boundaryStep at h
  split at h
  · exact Or.inr (run _ h)
  · split at h
    · next hq => exact Or.inl ⟨hq, by simpa using h.symm⟩
    · exact Or.inr (run _ h)
  · split at h
    · next hq =>
      split at h
      · exact Or.inr (run _ h)
      · exact Or.inl ⟨hq, by simpa using h.symm⟩
    · exact Or.inr (run s.irqPhase h)

/-- A step is one of these: a reset, a unit of time held in reset, a unit of the oscillator's start-up, a wake-up by a request, a
unit of time asleep, an interrupt, an instruction. -/
theorem step_cases (h : step s = .next t) :
    (∃ k, s.resetRequest = some k ∧ t = takeReset k s)
    ∨ (s.resetRequest = none ∧ s.pins.mclrLow = true ∧ t = advanceEnv s)
    ∨ (s.resetRequest = none ∧ s.pins.mclrLow = false
      ∧ ((0 < s.ostLeft ∧ t = ostStep { s with inReset := false })
        ∨ (s.ostLeft = 0 ∧ s.sleeping = true ∧ s.wakePending = true ∧ t = wakeByRequest { s with inReset := false })
        ∨ (s.ostLeft = 0 ∧ s.sleeping = true ∧ s.wakePending = false
          ∧ t = idleCycle { s with inReset := false, irqPhase := .fresh })
        ∨ (s.ostLeft = 0 ∧ s.sleeping = false ∧ s.irqRequest = true ∧ t = takeInterrupt { s with inReset := false })
        ∨ (s.ostLeft = 0 ∧ s.sleeping = false ∧ ∃ ph i u, decode s.fetch = .ok i
            ∧ exec i { s with inReset := false, irqPhase := ph } = .next u ∧ t = tick u.cycles u))) := by
  unfold step stepOnce at h
  split at h
  · next k hk => exact Or.inl ⟨k, hk, by simpa using h.symm⟩
  · next hr =>
    refine Or.inr ?_
    split at h
    · next hm => exact Or.inl ⟨hr, hm, by simpa using h.symm⟩
    · next hm =>
      refine Or.inr ⟨hr, by simpa using hm, ?_⟩
      unfold runningStep at h
      split at h
      · next ho => exact Or.inl ⟨ho, by simpa using h.symm⟩
      · next ho =>
        have ho' : s.ostLeft = 0 := by
          have : ¬ 0 < s.ostLeft := ho
          omega
        refine Or.inr ?_
        split at h
        · next hs =>
          unfold sleepStep at h
          split at h
          · next hw => exact Or.inl ⟨ho', hs, hw, by simpa using h.symm⟩
          · next hw =>
            have hw' : s.wakePending = false := Bool.eq_false_iff.mpr hw
            exact Or.inr (Or.inl ⟨ho', hs, hw', by simpa using h.symm⟩)
        · next hs =>
          have hs' : s.sleeping = false := by simpa using hs
          rcases boundaryStep_next h with ⟨hq, ht⟩ | hrun
          · exact Or.inr (Or.inr (Or.inl ⟨ho', hs', hq, ht⟩))
          · exact Or.inr (Or.inr (Or.inr ⟨ho', hs', hrun⟩))

/-- A boundary at which no interrupt is taken runs the instruction. -/
theorem boundaryStep_runs
    (h : s.irqPhase = .afterWake ∨ s.irqRequest = false ∨ (s.irqPhase = .fresh ∧ s.irqWaits = true)) :
    boundaryStep s = runInstruction { s with irqPhase := s.phaseDuring } := by
  unfold boundaryStep State.phaseDuring
  cases hp : s.irqPhase with
  | afterWake => rfl
  | delayed =>
    have hf : s.irqRequest = false := by simpa [hp] using h
    simp only [hf, Bool.false_eq_true, if_false]
  | fresh =>
    by_cases hf : s.irqRequest = true
    · have hw : s.irqWaits = true := by simpa [hf, hp] using h
      simp only [hf, hw, if_true]
    · have hf' : s.irqRequest = false := Bool.eq_false_iff.mpr hf
      simp only [hf', Bool.false_eq_true, if_false]
      rw [← hp]

/-- Awake, out of reset and with the oscillator running, the step is that of the instruction boundary. -/
theorem step_running (h : s.Running) : step s = boundaryStep { s with inReset := false } := by
  obtain ⟨hr, hm, hs, ho⟩ := h
  unfold step stepOnce
  rw [hr]
  simp only [hm, Bool.false_eq_true, if_false]
  unfold runningStep
  rw [if_neg (show ¬ 0 < s.ostLeft by omega), if_neg (show ¬ s.sleeping = true by simp [hs])]

/-- Where the machine runs an instruction, the step is that instruction's. -/
theorem step_runs (h : s.RunsInstruction) :
    step s = runInstruction { s with inReset := false, irqPhase := s.phaseDuring } := by
  rw [step_running h.toRunning]
  exact boundaryStep_runs (s := { s with inReset := false }) h.noEntry

end Sys2Proof.Machine
end

