-- ==== Sys2Proof/Laws/Ticks.lean ====
section
/-! SUPPORT. What each agent beside the CPU does to each field in one unit of time, and that in `tickCycle` (R300), and Timer0 apart
in `idleCycle` (R261), it does what it does alone. -/

namespace Sys2Proof.Machine

variable (s : State)

/-! ### Timer0 alone -/

/-- The pulses Timer0's clock takes in this cycle: the edges in counter mode, one in timer mode (R301, R304). -/
def State.t0Pulses : Nat := if s.t0cs then s.t0Edges else 1

/-- A cycle of Timer0 is skipped after a write to TMR0 (R303); else it takes the cycle's pulses. -/
theorem timer0Cycle_cases :
    (s.t0Skip = true ∧ timer0Cycle s = { s with t0Skip := false, t0Prev := s.t0cki })
    ∨ (s.t0Skip = false
      ∧ timer0Cycle s = t0Clock s.t0Pulses { s with t0Prev := if s.t0cs then s.t0cki else s.t0Prev }) := by
  unfold timer0Cycle State.t0Pulses
  by_cases h : s.t0Skip = true
  · exact Or.inl ⟨h, if_pos h⟩
  · refine Or.inr ⟨by simpa using h, ?_⟩
    rw [if_neg h]
    by_cases hc : s.t0cs = true <;> simp only [hc, Bool.false_eq_true, if_true, if_false]

theorem timer0Cycle_tmr0 :
    (timer0Cycle s).tmr0
      = if s.t0Skip then s.tmr0 else if s.t0Sync.getLsbD 1 then s.tmr0 + 0x01#8 else s.tmr0 := by
  rcases timer0Cycle_cases s with ⟨h, e⟩ | ⟨h, e⟩
  · rw [e, if_pos h]
  · rw [e, t0Clock_tmr0, h]; rfl

theorem timer0Cycle_t0Sync :
    (timer0Cycle s).t0Sync
      = if s.t0Skip then s.t0Sync
        else s.t0Sync.extractLsb' 0 1 ++ BitVec.ofBool (prescalePulse s.t0Pulses s) := by
  rcases timer0Cycle_cases s with ⟨h, e⟩ | ⟨h, e⟩
  · rw [e, if_pos h]
  · rw [e, t0Clock_t0Sync, h]; rfl

theorem timer0Cycle_presc :
    (timer0Cycle s).presc
      = if s.t0Skip || s.psa then s.presc else BitVec.ofNat 8 (s.presc.toNat + s.t0Pulses) := by
  rcases timer0Cycle_cases s with ⟨h, e⟩ | ⟨h, e⟩
  · rw [e, h]; rfl
  · rw [e, t0Clock_presc, prescale_presc, h]; rfl

theorem timer0Cycle_t0Skip : (timer0Cycle s).t0Skip = false := by
  rcases timer0Cycle_cases s with ⟨_, e⟩ | ⟨h, e⟩
  · rw [e]
  · rw [e, t0Clock_t0Skip]; exact h

theorem timer0Cycle_t0Prev :
    (timer0Cycle s).t0Prev = if s.t0Skip || s.t0cs then s.t0cki else s.t0Prev := by
  rcases timer0Cycle_cases s with ⟨h, e⟩ | ⟨h, e⟩
  · rw [e, h]; rfl
  · rw [e, h]; unfold t0Clock t0Count; rw [prescale_frame]; rfl

theorem timer0Cycle_intcon :
    (timer0Cycle s).intcon
      = if !s.t0Skip && s.t0Sync.getLsbD 1 && decide (s.tmr0 = 0xFF#8) then s.intcon ||| 0x04#8 else s.intcon := by
  rcases timer0Cycle_cases s with ⟨h, e⟩ | ⟨h, e⟩
  · rw [e, h]; rfl
  · rw [e, t0Clock_intcon, h]; rfl

/-! ### The EEPROM's write timer alone -/

/-- The write in progress ends in this unit of time (R317). -/
def State.eeEnds : Bool :=
  s.eeBusy && due s.cfg.eeMin s.cfg.eeMax (s.eeTimer + 1) (Config.eeWriteDone s.draws)

theorem eeTimerCycle_eeBusy : (eeTimerCycle s).eeBusy = (s.eeBusy && !s.eeEnds) := by
  unfold State.eeEnds
  rcases eeTimerCycle_cases s with ⟨h, e⟩ | ⟨h, hd, e⟩ | ⟨h, hd, e⟩ <;> rw [e]
  · simp [h]
  · simp [h, hd]
  · simp [h, hd, eeComplete]

theorem eeTimerCycle_eeTimer : (eeTimerCycle s).eeTimer = if s.eeBusy then s.eeTimer + 1 else s.eeTimer := by
  rcases eeTimerCycle_cases s with ⟨h, e⟩ | ⟨h, _, e⟩ | ⟨h, _, e⟩ <;> rw [e, h] <;> rfl

theorem eeTimerCycle_eecon1 :
    (eeTimerCycle s).eecon1 = if s.eeEnds then (s.eecon1 &&& 0b11101#5) ||| 0b10000#5 else s.eecon1 := by
  unfold State.eeEnds
  rcases eeTimerCycle_cases s with ⟨h, e⟩ | ⟨h, hd, e⟩ | ⟨h, hd, e⟩ <;> rw [e]
  · rw [h]; rfl
  · rw [h, hd]; rfl
  · rw [h, hd]; rfl

theorem eeTimerCycle_eeprom :
    (eeTimerCycle s).eeprom
      = if s.eeEnds then (s.setEe (eeCell s.eeWAddr) s.eeWData).eeprom else s.eeprom := by
  unfold State.eeEnds
  rcases eeTimerCycle_cases s with ⟨h, e⟩ | ⟨h, hd, e⟩ | ⟨h, hd, e⟩ <;> rw [e]
  · rw [h]; rfl
  · rw [h, hd]; rfl
  · rw [h, hd]; rfl

/-! ### The Watchdog alone -/

/-- The Watchdog's raw period ends in this unit of time (R252). -/
def State.wdtRaw : Bool := due s.cfg.wdtMin s.cfg.wdtMax (s.wdtCnt + 1) (Config.wdtPulseNow s.draws)

/-- The Watchdog times out in this unit of time: a raw pulse with WDTE = 1, and for PSA = 1 the postscaler's (R250, R252). -/
def State.wdtFires : Bool :=
  s.wdtRaw && s.cfg.wdte && (!s.psa || decide ((s.presc + 0x01#8).toNat % 2 ^ s.ps = 0))

/-- The Watchdog's count and the prescaler where it is the postscaler. -/
def State.wdtCounted : State :=
  { s with
    wdtCnt := if s.wdtRaw then 0 else s.wdtCnt + 1
    presc := if s.wdtRaw && s.cfg.wdte && s.psa then s.presc + 0x01#8 else s.presc }

/-- One unit of the Watchdog's time: it counts, and the time-out event happens exactly if it fires. -/
theorem wdtCycle_eq : wdtCycle s = if s.wdtFires then wdtTimeoutEvent s.wdtCounted else s.wdtCounted := by
  unfold State.wdtFires State.wdtCounted
  cases hr : s.wdtRaw with
  | false =>
    have hd : ¬due s.cfg.wdtMin s.cfg.wdtMax (s.wdtCnt + 1) (Config.wdtPulseNow s.draws) = true := by
      intro h; exact absurd (hr.symm.trans h) (by simp)
    simp only [wdtCycle]; rw [if_neg hd]; rfl
  | true =>
    have hd : due s.cfg.wdtMin s.cfg.wdtMax (s.wdtCnt + 1) (Config.wdtPulseNow s.draws) = true := hr
    simp only [wdtCycle]; rw [if_pos hd]
    cases he : s.cfg.wdte with
    | false => rw [if_neg (by simp)]; rfl
    | true =>
      rw [if_pos rfl]
      cases hp : s.psa with
      | false => simp only [wdtPulse]; rw [if_neg (show ¬({ s with wdtCnt := 0 } : State).psa = true by
          intro h; exact absurd (hp.symm.trans h) (by simp))]; rfl
      | true =>
        simp only [wdtPulse]
        rw [if_pos (show ({ s with wdtCnt := 0 } : State).psa = true from hp)]
        by_cases hz : (s.presc + 0x01#8).toNat % 2 ^ s.ps = 0
        · refine (if_pos hz).trans ?_
          rw [decide_eq_true hz]; rfl
        · refine (if_neg hz).trans ?_
          rw [decide_eq_false hz]; rfl

theorem wdtCycle_wdtCnt : (wdtCycle s).wdtCnt = if s.wdtRaw then 0 else s.wdtCnt + 1 := by
  rw [wdtCycle_eq]; unfold wdtTimeoutEvent; split
  · split <;> rfl
  · rfl

theorem wdtCycle_presc :
    (wdtCycle s).presc = if s.wdtRaw && s.cfg.wdte && s.psa then s.presc + 0x01#8 else s.presc := by
  rw [wdtCycle_eq]; unfold wdtTimeoutEvent; split
  · split <;> rfl
  · rfl

theorem wdtCycle_wdtTimeout : (wdtCycle s).wdtTimeout = (s.wdtTimeout || (s.wdtFires && !s.sleeping)) := by
  rw [wdtCycle_eq]; unfold wdtTimeoutEvent
  cases hf : s.wdtFires with
  | false => simp [State.wdtCounted]
  | true => cases hs : s.sleeping <;> simp [State.wdtCounted, hs, wakeByWdt, wake]

theorem wdtCycle_sleeping : (wdtCycle s).sleeping = (s.sleeping && !s.wdtFires) := by
  rw [wdtCycle_eq]; unfold wdtTimeoutEvent
  cases hf : s.wdtFires with
  | false => simp [State.wdtCounted]
  | true => cases hs : s.sleeping <;> simp [State.wdtCounted, hs, wakeByWdt, wake]

theorem wdtCycle_status :
    (wdtCycle s).status
      = if s.wdtFires && s.sleeping then withToPd s.status false (s.status.getLsbD 3) else s.status := by
  rw [wdtCycle_eq]; unfold wdtTimeoutEvent
  cases hf : s.wdtFires with
  | false => rfl
  | true => cases hs : s.sleeping <;> simp [State.wdtCounted, hs, wakeByWdt, wake]

theorem wdtCycle_ostLeft :
    (wdtCycle s).ostLeft = if s.wdtFires && s.sleeping then s.cfg.ostCycles else s.ostLeft := by
  rw [wdtCycle_eq]; unfold wdtTimeoutEvent
  cases hf : s.wdtFires with
  | false => rfl
  | true => cases hs : s.sleeping <;> simp [State.wdtCounted, hs, wakeByWdt, wake]

/-- A wake-up re-samples T0PREV (R306); else the Watchdog leaves it. -/
theorem wdtCycle_t0Prev :
    (wdtCycle s).t0Prev = if s.wdtFires && s.sleeping then s.t0cki else s.t0Prev := by
  rw [wdtCycle_eq]; unfold wdtTimeoutEvent
  cases hf : s.wdtFires with
  | false => rfl
  | true =>
    cases hs : s.sleeping
    · simp [State.wdtCounted, hs]
    · simp only [State.wdtCounted, hs, wakeByWdt, wake]; rfl

/-! ### The end of the unit of time -/

/-- The environment goes on and the free values are drawn anew: nothing else changes. -/
theorem endCycle_eq :
    endCycle s = { s with draws := s.draws + 1, pins := (advanceEnv s).pins, pinQueue := (advanceEnv s).pinQueue } := by
  unfold endCycle advanceEnv; cases s.pinQueue <;> rfl

/-! ### One cycle of the whole machine (R300) -/

/-- The state the Watchdog sees in a cycle: the agents before it have run. -/
def State.beforeWdt : State := eeTimerCycle (timer0Cycle (rbChangeCycle (intPinCycle s)))

theorem tickCycle_eq : tickCycle s = endCycle (wdtCycle s.beforeWdt) := rfl

theorem tick_one : tick 1 s = tickCycle s := rfl

theorem tick_succ (n : Nat) : tick (n + 1) s = tick n (tickCycle s) := rfl

/-- The last of `n + 1` ticks comes after `n`. -/
theorem tick_succ_last (n : Nat) : tick (n + 1) s = tickCycle (tick n s) := by
  induction n generalizing s with
  | zero => rfl
  | succ n ih => exact ih (tickCycle s)

theorem times_succ_last (g : State → State) (n : Nat) : times g (n + 1) s = g (times g n s) := by
  induction n generalizing s with
  | zero => rfl
  | succ n ih => exact ih (g s)

/-- Ticks are cycles of the whole machine, one after another. -/
theorem tick_eq_times (n : Nat) : tick n s = times tickCycle n s := by
  induction n generalizing s with
  | zero => rfl
  | succ n ih => exact ih (tickCycle s)

/-- The state the EEPROM's write timer sees in a cycle. -/
def State.beforeEe : State := timer0Cycle (rbChangeCycle (intPinCycle s))

theorem beforeWdt_eq : s.beforeWdt = eeTimerCycle s.beforeEe := rfl

/-- Of Timer0 and the pins' detectors before it, the write timer reads nothing. -/
theorem beforeEe_frame : s.beforeEe.lessTimer0 = ({ s with intPrev := s.pinB 0 } : State).lessTimer0 :=
  timer0Cycle_frame _

theorem beforeEe_psa : s.beforeEe.psa = s.psa := by
  unfold State.psa; rw [lessTimer0_optionReg (beforeEe_frame s)]

theorem beforeEe_presc_of_psa (h : s.psa = true) : s.beforeEe.presc = s.presc := by
  unfold State.beforeEe; rw [timer0Cycle_presc]
  have h' : (rbChangeCycle (intPinCycle s)).psa = true := h
  rw [h', Bool.or_true]; rfl

theorem beforeEe_eeEnds : s.beforeEe.eeEnds = s.eeEnds := by
  unfold State.eeEnds
  rw [lessTimer0_eeBusy (beforeEe_frame s), lessTimer0_cfg (beforeEe_frame s), lessTimer0_eeTimer (beforeEe_frame s),
    lessTimer0_draws (beforeEe_frame s)]

theorem beforeWdt_wdtRaw : s.beforeWdt.wdtRaw = s.wdtRaw := by
  unfold State.wdtRaw
  have e := eeTimerCycle_frame s.beforeEe
  rw [beforeWdt_eq, lessEeWrite_cfg e, lessEeWrite_wdtCnt e, lessEeWrite_draws e, lessTimer0_cfg (beforeEe_frame s),
    lessTimer0_wdtCnt (beforeEe_frame s), lessTimer0_draws (beforeEe_frame s)]

theorem beforeWdt_optionReg : s.beforeWdt.optionReg = s.optionReg := by
  rw [beforeWdt_eq, lessEeWrite_optionReg (eeTimerCycle_frame _), lessTimer0_optionReg (beforeEe_frame s)]

theorem beforeWdt_cfg : s.beforeWdt.cfg = s.cfg := by
  rw [beforeWdt_eq, lessEeWrite_cfg (eeTimerCycle_frame _), lessTimer0_cfg (beforeEe_frame s)]

theorem beforeWdt_sleeping : s.beforeWdt.sleeping = s.sleeping := by
  rw [beforeWdt_eq, lessEeWrite_sleeping (eeTimerCycle_frame _), lessTimer0_sleeping (beforeEe_frame s)]

theorem beforeWdt_presc : s.beforeWdt.presc = s.beforeEe.presc := by
  rw [beforeWdt_eq, lessEeWrite_presc (eeTimerCycle_frame _)]

/-- The Watchdog times out in a cycle exactly where it would alone: for PSA = 1 Timer0 leaves it the prescaler. -/
theorem beforeWdt_wdtFires : s.beforeWdt.wdtFires = s.wdtFires := by
  unfold State.wdtFires State.psa State.ps
  rw [beforeWdt_wdtRaw, beforeWdt_cfg, beforeWdt_optionReg]
  cases hp : s.optionReg.getLsbD 3 with
  | false => rfl
  | true => rw [beforeWdt_presc, beforeEe_presc_of_psa s hp]

theorem tickCycle_tmr0 : (tickCycle s).tmr0 = (timer0Cycle s).tmr0 := by
  rw [tickCycle_eq, endCycle_eq]
  refine (lessWdt_tmr0 (wdtCycle_frame _)).trans ((lessEeWrite_tmr0 (eeTimerCycle_frame s.beforeEe)).trans ?_)
  unfold State.beforeEe; rw [timer0Cycle_tmr0, timer0Cycle_tmr0]; rfl

theorem tickCycle_t0Sync : (tickCycle s).t0Sync = (timer0Cycle s).t0Sync := by
  rw [tickCycle_eq, endCycle_eq]
  refine (lessWdt_t0Sync (wdtCycle_frame _)).trans ((lessEeWrite_t0Sync (eeTimerCycle_frame s.beforeEe)).trans ?_)
  unfold State.beforeEe; rw [timer0Cycle_t0Sync, timer0Cycle_t0Sync]; rfl

theorem tickCycle_t0Skip : (tickCycle s).t0Skip = false := by
  rw [tickCycle_eq, endCycle_eq]
  refine (lessWdt_t0Skip (wdtCycle_frame _)).trans ((lessEeWrite_t0Skip (eeTimerCycle_frame s.beforeEe)).trans ?_)
  unfold State.beforeEe; rw [timer0Cycle_t0Skip]

/-- A cycle re-samples T0PREV where Timer0 does, and where the Watchdog wakes the device. -/
theorem tickCycle_t0Prev :
    (tickCycle s).t0Prev = if s.wdtFires && s.sleeping then s.t0cki else (timer0Cycle s).t0Prev := by
  have hc : s.beforeWdt.t0cki = s.t0cki := by
    have e := eeTimerCycle_frame s.beforeEe
    unfold State.t0cki State.pinA
    rw [beforeWdt_eq, lessEeWrite_trisa e, lessEeWrite_lata e, lessEeWrite_pins e, lessEeWrite_draws e,
      lessTimer0_trisa (beforeEe_frame s), lessTimer0_lata (beforeEe_frame s), lessTimer0_pins (beforeEe_frame s),
      lessTimer0_draws (beforeEe_frame s)]
  rw [tickCycle_eq, endCycle_eq]
  refine (wdtCycle_t0Prev _).trans ?_
  rw [beforeWdt_wdtFires, beforeWdt_sleeping, hc]
  have e : s.beforeWdt.t0Prev = (timer0Cycle s).t0Prev := by
    rw [beforeWdt_eq, lessEeWrite_t0Prev (eeTimerCycle_frame _)]
    unfold State.beforeEe; rw [timer0Cycle_t0Prev, timer0Cycle_t0Prev]; rfl
  rw [e]

/-- The prescaler's owner alone moves it: the Watchdog for PSA = 1, Timer0 for PSA = 0. -/
theorem tickCycle_presc : (tickCycle s).presc = if s.psa then (wdtCycle s).presc else (timer0Cycle s).presc := by
  rw [tickCycle_eq, endCycle_eq]
  refine (wdtCycle_presc _).trans ?_
  have hps : s.beforeWdt.psa = s.psa := by unfold State.psa; rw [beforeWdt_optionReg]
  rw [beforeWdt_wdtRaw, beforeWdt_cfg, hps, beforeWdt_presc]
  cases hp : s.psa with
  | true => rw [beforeEe_presc_of_psa s hp, wdtCycle_presc, hp]; rfl
  | false =>
    rw [Bool.and_false]
    refine (?_ : s.beforeEe.presc = (timer0Cycle s).presc)
    unfold State.beforeEe; rw [timer0Cycle_presc, timer0Cycle_presc]; rfl

/-- INTCON takes INTF, RBIF and T0IF of the cycle, and nothing else touches it. -/
theorem tickCycle_intcon : (tickCycle s).intcon = (timer0Cycle (rbChangeCycle (intPinCycle s))).intcon := by
  rw [tickCycle_eq, endCycle_eq]
  exact (lessWdt_intcon (wdtCycle_frame _)).trans (lessEeWrite_intcon (eeTimerCycle_frame s.beforeEe))

theorem tickCycle_intPrev : (tickCycle s).intPrev = s.pinB 0 := by
  rw [tickCycle_eq, endCycle_eq]
  exact (lessWdt_intPrev (wdtCycle_frame _)).trans
    ((lessEeWrite_intPrev (eeTimerCycle_frame s.beforeEe)).trans (lessTimer0_intPrev (beforeEe_frame s)))

theorem tickCycle_eeBusy : (tickCycle s).eeBusy = (eeTimerCycle s).eeBusy := by
  rw [tickCycle_eq, endCycle_eq]
  refine (lessWdt_eeBusy (wdtCycle_frame _)).trans ((eeTimerCycle_eeBusy s.beforeEe).trans ?_)
  rw [eeTimerCycle_eeBusy, beforeEe_eeEnds, lessTimer0_eeBusy (beforeEe_frame s)]

theorem tickCycle_eeTimer : (tickCycle s).eeTimer = (eeTimerCycle s).eeTimer := by
  rw [tickCycle_eq, endCycle_eq]
  refine (lessWdt_eeTimer (wdtCycle_frame _)).trans ((eeTimerCycle_eeTimer s.beforeEe).trans ?_)
  rw [eeTimerCycle_eeTimer, lessTimer0_eeBusy (beforeEe_frame s), lessTimer0_eeTimer (beforeEe_frame s)]

theorem tickCycle_eecon1 : (tickCycle s).eecon1 = (eeTimerCycle s).eecon1 := by
  rw [tickCycle_eq, endCycle_eq]
  refine (lessWdt_eecon1 (wdtCycle_frame _)).trans ((eeTimerCycle_eecon1 s.beforeEe).trans ?_)
  rw [eeTimerCycle_eecon1, beforeEe_eeEnds, lessTimer0_eecon1 (beforeEe_frame s)]

theorem tickCycle_eeprom : (tickCycle s).eeprom = (eeTimerCycle s).eeprom := by
  rw [tickCycle_eq, endCycle_eq]
  refine (lessWdt_eeprom (wdtCycle_frame _)).trans ((eeTimerCycle_eeprom s.beforeEe).trans ?_)
  rw [eeTimerCycle_eeprom, beforeEe_eeEnds]; unfold State.setEe
  rw [lessTimer0_eeprom (beforeEe_frame s), lessTimer0_eeWAddr (beforeEe_frame s), lessTimer0_eeWData (beforeEe_frame s)]

theorem tickCycle_wdtCnt : (tickCycle s).wdtCnt = (wdtCycle s).wdtCnt := by
  have e : s.beforeWdt.wdtCnt = s.wdtCnt := by
    rw [beforeWdt_eq, lessEeWrite_wdtCnt (eeTimerCycle_frame _), lessTimer0_wdtCnt (beforeEe_frame s)]
  rw [tickCycle_eq, endCycle_eq]
  refine (wdtCycle_wdtCnt _).trans ?_
  rw [wdtCycle_wdtCnt, beforeWdt_wdtRaw, e]

theorem tickCycle_wdtTimeout : (tickCycle s).wdtTimeout = (wdtCycle s).wdtTimeout := by
  have e : s.beforeWdt.wdtTimeout = s.wdtTimeout := by
    rw [beforeWdt_eq, lessEeWrite_wdtTimeout (eeTimerCycle_frame _), lessTimer0_wdtTimeout (beforeEe_frame s)]
  rw [tickCycle_eq, endCycle_eq]
  refine (wdtCycle_wdtTimeout _).trans ?_
  rw [wdtCycle_wdtTimeout, beforeWdt_wdtFires, beforeWdt_sleeping, e]

theorem tickCycle_sleeping : (tickCycle s).sleeping = (wdtCycle s).sleeping := by
  rw [tickCycle_eq, endCycle_eq]
  refine (wdtCycle_sleeping _).trans ?_
  rw [wdtCycle_sleeping, beforeWdt_wdtFires, beforeWdt_sleeping]

theorem tickCycle_status : (tickCycle s).status = (wdtCycle s).status := by
  have e : s.beforeWdt.status = s.status := by
    rw [beforeWdt_eq, lessEeWrite_status (eeTimerCycle_frame _), lessTimer0_status (beforeEe_frame s)]
  rw [tickCycle_eq, endCycle_eq]
  refine (wdtCycle_status _).trans ?_
  rw [wdtCycle_status, beforeWdt_wdtFires, beforeWdt_sleeping, e]

/-! ### One unit of time without an instruction cycle (R261, R349) -/

/-- The state the EEPROM's write timer sees in an idle unit: the pins' detectors have run, and T0PREV is re-sampled. -/
def State.idleEe : State := { (rbChangeCycle (intPinCycle s)) with t0Prev := s.t0cki }

/-- The state the Watchdog sees in an idle unit. -/
def State.idleWdt : State := eeTimerCycle s.idleEe

theorem idleCycle_eq : idleCycle s = endCycle (wdtCycle s.idleWdt) := rfl

theorem idleWdt_frame : s.idleWdt.lessEeWrite = s.idleEe.lessEeWrite := eeTimerCycle_frame _

theorem idleWdt_wdtRaw : s.idleWdt.wdtRaw = s.wdtRaw := by
  unfold State.wdtRaw
  rw [lessEeWrite_cfg (idleWdt_frame s), lessEeWrite_wdtCnt (idleWdt_frame s), lessEeWrite_draws (idleWdt_frame s)]; rfl

theorem idleWdt_wdtFires : s.idleWdt.wdtFires = s.wdtFires := by
  unfold State.wdtFires State.psa State.ps
  rw [idleWdt_wdtRaw, lessEeWrite_cfg (idleWdt_frame s), lessEeWrite_optionReg (idleWdt_frame s),
    lessEeWrite_presc (idleWdt_frame s)]; rfl

theorem idleWdt_sleeping : s.idleWdt.sleeping = s.sleeping := lessEeWrite_sleeping (b := s.idleEe) (idleWdt_frame s)

theorem idleCycle_tmr0 : (idleCycle s).tmr0 = s.tmr0 := by
  rw [idleCycle_eq, endCycle_eq]
  exact (lessWdt_tmr0 (wdtCycle_frame _)).trans (lessEeWrite_tmr0 (b := s.idleEe) (idleWdt_frame s))

theorem idleCycle_t0Sync : (idleCycle s).t0Sync = s.t0Sync := by
  rw [idleCycle_eq, endCycle_eq]
  exact (lessWdt_t0Sync (wdtCycle_frame _)).trans (lessEeWrite_t0Sync (b := s.idleEe) (idleWdt_frame s))

theorem idleCycle_t0Skip : (idleCycle s).t0Skip = s.t0Skip := by
  rw [idleCycle_eq, endCycle_eq]
  exact (lessWdt_t0Skip (wdtCycle_frame _)).trans (lessEeWrite_t0Skip (b := s.idleEe) (idleWdt_frame s))

/-- T0PREV follows its pin (R306), at the wake-up too. -/
theorem idleCycle_t0Prev : (idleCycle s).t0Prev = s.t0cki := by
  have e : s.idleWdt.t0Prev = s.t0cki := lessEeWrite_t0Prev (idleWdt_frame s)
  have hc : s.idleWdt.t0cki = s.t0cki := by
    unfold State.t0cki State.pinA
    rw [lessEeWrite_trisa (idleWdt_frame s), lessEeWrite_lata (idleWdt_frame s), lessEeWrite_pins (idleWdt_frame s),
      lessEeWrite_draws (idleWdt_frame s)]; rfl
  rw [idleCycle_eq, endCycle_eq]
  refine (wdtCycle_t0Prev _).trans ?_
  rw [hc, e]; split <;> rfl

theorem idleCycle_presc : (idleCycle s).presc = (wdtCycle s).presc := by
  rw [idleCycle_eq, endCycle_eq]
  refine (wdtCycle_presc _).trans ?_
  unfold State.psa
  rw [wdtCycle_presc, idleWdt_wdtRaw, lessEeWrite_cfg (idleWdt_frame s), lessEeWrite_optionReg (idleWdt_frame s),
    lessEeWrite_presc (idleWdt_frame s)]; rfl

theorem idleCycle_intcon : (idleCycle s).intcon = (rbChangeCycle (intPinCycle s)).intcon := by
  rw [idleCycle_eq, endCycle_eq]
  exact (lessWdt_intcon (wdtCycle_frame _)).trans (lessEeWrite_intcon (b := s.idleEe) (idleWdt_frame s))

theorem idleCycle_intPrev : (idleCycle s).intPrev = s.pinB 0 := by
  rw [idleCycle_eq, endCycle_eq]
  exact (lessWdt_intPrev (wdtCycle_frame _)).trans (lessEeWrite_intPrev (b := s.idleEe) (idleWdt_frame s))

theorem idleCycle_eeBusy : (idleCycle s).eeBusy = (eeTimerCycle s).eeBusy := by
  rw [idleCycle_eq, endCycle_eq]
  refine (lessWdt_eeBusy (wdtCycle_frame _)).trans ((eeTimerCycle_eeBusy s.idleEe).trans ?_)
  rw [eeTimerCycle_eeBusy]; rfl

theorem idleCycle_eeTimer : (idleCycle s).eeTimer = (eeTimerCycle s).eeTimer := by
  rw [idleCycle_eq, endCycle_eq]
  refine (lessWdt_eeTimer (wdtCycle_frame _)).trans ((eeTimerCycle_eeTimer s.idleEe).trans ?_)
  rw [eeTimerCycle_eeTimer]; rfl

theorem idleCycle_eecon1 : (idleCycle s).eecon1 = (eeTimerCycle s).eecon1 := by
  rw [idleCycle_eq, endCycle_eq]
  refine (lessWdt_eecon1 (wdtCycle_frame _)).trans ((eeTimerCycle_eecon1 s.idleEe).trans ?_)
  rw [eeTimerCycle_eecon1]; rfl

theorem idleCycle_eeprom : (idleCycle s).eeprom = (eeTimerCycle s).eeprom := by
  rw [idleCycle_eq, endCycle_eq]
  refine (lessWdt_eeprom (wdtCycle_frame _)).trans ((eeTimerCycle_eeprom s.idleEe).trans ?_)
  rw [eeTimerCycle_eeprom]; rfl

theorem idleCycle_wdtCnt : (idleCycle s).wdtCnt = (wdtCycle s).wdtCnt := by
  rw [idleCycle_eq, endCycle_eq]
  refine (wdtCycle_wdtCnt _).trans ?_
  rw [wdtCycle_wdtCnt, idleWdt_wdtRaw, lessEeWrite_wdtCnt (idleWdt_frame s)]; rfl

theorem idleCycle_wdtTimeout : (idleCycle s).wdtTimeout = (wdtCycle s).wdtTimeout := by
  rw [idleCycle_eq, endCycle_eq]
  refine (wdtCycle_wdtTimeout _).trans ?_
  rw [wdtCycle_wdtTimeout, idleWdt_wdtFires, idleWdt_sleeping, lessEeWrite_wdtTimeout (idleWdt_frame s)]; rfl

theorem idleCycle_sleeping : (idleCycle s).sleeping = (wdtCycle s).sleeping := by
  rw [idleCycle_eq, endCycle_eq]
  refine (wdtCycle_sleeping _).trans ?_
  rw [wdtCycle_sleeping, idleWdt_wdtFires, idleWdt_sleeping]

theorem idleCycle_status : (idleCycle s).status = (wdtCycle s).status := by
  rw [idleCycle_eq, endCycle_eq]
  refine (wdtCycle_status _).trans ?_
  rw [wdtCycle_status, idleWdt_wdtFires, idleWdt_sleeping, lessEeWrite_status (idleWdt_frame s)]; rfl

theorem idleCycle_ostLeft : (idleCycle s).ostLeft = (wdtCycle s).ostLeft := by
  rw [idleCycle_eq, endCycle_eq]
  refine (wdtCycle_ostLeft _).trans ?_
  rw [wdtCycle_ostLeft, idleWdt_wdtFires, idleWdt_sleeping, lessEeWrite_cfg (idleWdt_frame s),
    lessEeWrite_ostLeft (idleWdt_frame s)]; rfl

end Sys2Proof.Machine
end

