-- ==== Sys2Proof/Tests/Slice0.lean ====
section
/-! SUPPORT. The author's own tests: words written out from the encodings of spec/30_encoding.md R128, ill-formed instructions the checks
refuse, one step per instruction with the results spec/95_test_vectors.md prints (S = an example of the source, V = a derived vector),
and for every obligation with hypotheses a state and operands that meet them. -/

namespace Sys2Proof.Tests

open Sys2Proof Sys2Proof.Machine

/-- The answer of the decoder, none where it refuses. -/
def dec (w : InstrWord) : Option Instr := (decode w).toOption

/-! ### Decoding: a word of every row of R128, written out bit by bit -/

theorem test_decode_byte_oriented_1 :
    dec 0b00011110001100#14 = some (.addwf 0x0C#7 .f)
      ∧ dec 0b00010100000100#14 = some (.andwf 0x04#7 .w)
      ∧ dec 0b00000110100000#14 = some (.clrf 0x20#7)
      ∧ dec 0b00000100000011#14 = some .clrw
      ∧ dec 0b00100100100001#14 = some (.comf 0x21#7 .w)
      ∧ dec 0b00001110100010#14 = some (.decf 0x22#7 .f)
      ∧ dec 0b00101110100010#14 = some (.decfsz 0x22#7 .f)
      ∧ dec 0b00101010000000#14 = some (.incf 0x00#7 .f)
      ∧ dec 0b00111111111111#14 = some (.incfsz 0x7F#7 .f) := by
  decide

theorem test_decode_byte_oriented_2 :
    dec 0b00010000100011#14 = some (.iorwf 0x23#7 .w)
      ∧ dec 0b00100000000100#14 = some (.movf 0x04#7 .w)
      ∧ dec 0b00000011111111#14 = some (.movwf 0x7F#7)
      ∧ dec 0b00000001100000#14 = some .nop
      ∧ dec 0b00110110100001#14 = some (.rlf 0x21#7 .f)
      ∧ dec 0b00110000100001#14 = some (.rrf 0x21#7 .w)
      ∧ dec 0b00001000000000#14 = some (.subwf 0x00#7 .w)
      ∧ dec 0b00111010001100#14 = some (.swapf 0x0C#7 .f)
      ∧ dec 0b00011000001101#14 = some (.xorwf 0x0D#7 .w) := by
  decide

theorem test_decode_bit_oriented :
    dec 0b01000000000000#14 = some (.bcf 0x00#7 0#3)
      ∧ dec 0b01011010000011#14 = some (.bsf 0x03#7 5#3)
      ∧ dec 0b01100010100000#14 = some (.btfsc 0x20#7 1#3)
      ∧ dec 0b01111111111111#14 = some (.btfss 0x7F#7 7#3) := by
  decide

theorem test_decode_literal :
    dec 0b11111100010101#14 = some (.addlw 0x15#8)
      ∧ dec 0b11100101011111#14 = some (.andlw 0x5F#8)
      ∧ dec 0b11100000110101#14 = some (.iorlw 0x35#8)
      ∧ dec 0b11001110100101#14 = some (.movlw 0xA5#8)
      ∧ dec 0b11011111000011#14 = some (.retlw 0xC3#8)
      ∧ dec 0b11110100000101#14 = some (.sublw 0x05#8)
      ∧ dec 0b11101010101111#14 = some (.xorlw 0xAF#8) := by
  decide

theorem test_decode_control :
    dec 0b10011111111111#14 = some (.call 0x7FF#11)
      ∧ dec 0b10100000000010#14 = some (.goto 0x002#11)
      ∧ dec 0b00000001100100#14 = some .clrwdt
      ∧ dec 0b00000000001001#14 = some .retfie
      ∧ dec 0b00000000001000#14 = some .ret
      ∧ dec 0b00000001100011#14 = some .sleep
      ∧ dec 0b00000001100010#14 = some .option
      ∧ dec 0b00000001100101#14 = some .trisA
      ∧ dec 0b00000001100110#14 = some .trisB := by
  decide

/-- V19: the reserved words next to instructions. -/
theorem test_decode_reserved :
    dec 0x0001#14 = none ∧ dec 0x0007#14 = none ∧ dec 0x000A#14 = none ∧ dec 0x0061#14 = none ∧ dec 0x0067#14 = none
      ∧ dec 0x007F#14 = none ∧ dec 0x3B00#14 = none ∧ dec 0x3BFF#14 = none ∧ dec 0x3AFF#14 = some (.xorlw 0xFF#8)
      ∧ dec 0x3C00#14 = some (.sublw 0x00#8) ∧ dec 0x0080#14 = some (.movwf 0x00#7) := by
  decide

/-- A number that is no 14-bit word is no instruction, and a table word is. -/
theorem test_decodeTableWord :
    decodeTableWord 16 0x3FFF = some (.addlw 0xFF#8) ∧ decodeTableWord 16 0x4000 = none
      ∧ decodeTableWord 14 0x0065 = some .trisA := by
  decide

/-! ### Well-formedness -/

theorem test_wellFormed_refuses :
    (Instr.decfsz 0x02#7 .f).wellFormed true = false ∧ (Instr.incfsz 0x02#7 .f).wellFormed true = false
      ∧ Instr.trisA.wellFormed false = false ∧ Instr.trisB.wellFormed false = false := by
  decide

theorem test_wellFormed_admits :
    (Instr.decfsz 0x02#7 .w).wellFormed true = true ∧ (Instr.incfsz 0x03#7 .f).wellFormed true = true
      ∧ Instr.trisA.wellFormed true = true := by
  decide

/-! ### One step of each instruction -/

/-- The state of spec/95_test_vectors.md 'Conventions' at pc 0100h: [0C] is `c`, W is `w`. -/
def start (c w : Byte) : State := { State.reset.setGpr 0x0C c with w := w, pc := 0x0100#13 }

/-- What one step from `s` gives where it fetches the word `word`, read by `g`. -/
def after {α : Type} (word : Nat) (s : State) (g : State → α) : Option α :=
  match step (s.withFetchWord 14 word) with
  | .next t => some (g t)
  | .fault _ => none
  | .refused _ => none

/-- [0C], W and STATUS. -/
def cws (t : State) : Byte × Byte × Byte := (t.gpr 0x0C, t.w, t.status)

/-- The PC, the stack pointer and the cycles. -/
def flow (t : State) : PAddr × BitVec 3 × Nat := (t.pc, t.sp, t.cycles)

/-- V1. -/
theorem test_step_addwf : after 0x078C (start 0xFF#8 0x01#8) cws = some (0x00#8, 0x01#8, 0x1F#8) := by decide

/-- V1. -/
theorem test_step_addwf_no_carry_in : after 0x070C { start 0x01#8 0x01#8 with status := 0x19#8 } cws = some (0x01#8, 0x02#8, 0x18#8) := by decide

/-- V1. -/
theorem test_step_subwf_borrow : after 0x028C (start 0x00#8 0x01#8) cws = some (0xFF#8, 0x01#8, 0x18#8) := by decide

/-- V1. -/
theorem test_step_subwf_zero : after 0x020C (start 0x37#8 0x00#8) cws = some (0x37#8, 0x37#8, 0x1B#8) := by decide

/-- V2. -/
theorem test_step_andwf : after 0x050C (start 0xF0#8 0x0F#8) cws = some (0xF0#8, 0x00#8, 0x1C#8) := by decide

/-- S29a. -/
theorem test_step_clrf : after 0x018C (start 0x5A#8 0x11#8) cws = some (0x00#8, 0x11#8, 0x1C#8) := by decide

/-- S4. -/
theorem test_step_clrf_status : after 0x0183 { start 0x00#8 0x00#8 with status := 0x1B#8 } cws = some (0x00#8, 0x00#8, 0x1F#8) := by decide

/-- V2. -/
theorem test_step_clrw : after 0x017F (start 0x11#8 0x5A#8) cws = some (0x11#8, 0x00#8, 0x1C#8) := by decide

/-- V2. -/
theorem test_step_comf : after 0x098C (start 0x00#8 0x11#8) cws = some (0xFF#8, 0x11#8, 0x18#8) := by decide

/-- V2. -/
theorem test_step_decf : after 0x030C (start 0x01#8 0x77#8) cws = some (0x01#8, 0x00#8, 0x1C#8) := by decide

/-- V3. -/
theorem test_step_decfsz_skips : after 0x0B8C (start 0x01#8 0x00#8) flow = some (0x0102#13, 0#3, 2) := by decide

/-- V3. -/
theorem test_step_decfsz_goes_on : after 0x0B8C (start 0x00#8 0x11#8) cws = some (0xFF#8, 0x11#8, 0x18#8) := by decide

/-- V2. -/
theorem test_step_incf_keeps_carry : after 0x0A8C { start 0xFF#8 0x11#8 with status := 0x19#8 } cws = some (0x00#8, 0x11#8, 0x1D#8) := by decide

/-- V4. -/
theorem test_step_incf_status : after 0x0A83 { start 0x00#8 0x00#8 with status := 0x1F#8 } cws = some (0x00#8, 0x00#8, 0x3B#8) := by decide

/-- V3. -/
theorem test_step_incfsz_skips : after 0x0F8C (start 0xFF#8 0x00#8) flow = some (0x0102#13, 0#3, 2) := by decide

/-- V3. -/
theorem test_step_incfsz_goes_on : after 0x0F8C (start 0x00#8 0x11#8) cws = some (0x01#8, 0x11#8, 0x18#8) := by decide

/-- V2. -/
theorem test_step_iorwf : after 0x048C (start 0x00#8 0x00#8) cws = some (0x00#8, 0x00#8, 0x1C#8) := by decide

/-- V2. -/
theorem test_step_movf : after 0x080C { start 0x80#8 0x00#8 with status := 0x1C#8 } cws = some (0x80#8, 0x80#8, 0x18#8) := by decide

/-- V5. -/
theorem test_step_movf_indirect : after 0x0800 { start 0x5E#8 0x00#8 with fsr := 0x8C#8, status := 0x38#8 } cws = some (0x5E#8, 0x5E#8, 0x38#8) := by decide

/-- V2. -/
theorem test_step_movwf : after 0x008C { start 0x00#8 0xAB#8 with status := 0x1F#8 } cws = some (0xAB#8, 0xAB#8, 0x1F#8) := by decide

/-- V4. -/
theorem test_step_movwf_status : after 0x0083 { start 0x00#8 0xFF#8 with status := 0x00#8 } cws = some (0x00#8, 0xFF#8, 0xE7#8) := by decide

/-- V2. -/
theorem test_step_nop : after 0x0060 (start 0x11#8 0x22#8) cws = some (0x11#8, 0x22#8, 0x18#8) := by decide

/-- V2. -/
theorem test_step_rlf : after 0x0D8C { start 0x80#8 0x00#8 with status := 0x19#8 } cws = some (0x01#8, 0x00#8, 0x19#8) := by decide

/-- V4. -/
theorem test_step_rlf_status : after 0x0D83 { start 0x00#8 0x00#8 with status := 0x99#8 } cws = some (0x00#8, 0x00#8, 0x39#8) := by decide

/-- V2. -/
theorem test_step_rrf : after 0x0C8C { start 0x01#8 0x00#8 with status := 0x19#8 } cws = some (0x80#8, 0x00#8, 0x19#8) := by decide

/-- V2. -/
theorem test_step_swapf : after 0x0E8C (start 0xA5#8 0x00#8) cws = some (0x5A#8, 0x00#8, 0x18#8) := by decide

/-- V2. -/
theorem test_step_xorwf : after 0x060C (start 0xF0#8 0x0F#8) cws = some (0xF0#8, 0xFF#8, 0x18#8) := by decide

/-- V6. -/
theorem test_step_addwf_pcl : after 0x0782 { start 0x00#8 0x03#8 with pc := 0x01FE#13, pclath := 0x01#5 } flow = some (0x0102#13, 0#3, 2) := by decide

/-- V8. -/
theorem test_step_bcf : after 0x100C (start 0xFF#8 0x00#8) cws = some (0xFE#8, 0x00#8, 0x18#8) := by decide

/-- V8. -/
theorem test_step_bsf : after 0x178C (start 0x7F#8 0x00#8) cws = some (0xFF#8, 0x00#8, 0x18#8) := by decide

/-- V8. -/
theorem test_step_btfsc_skips : after 0x188C (start 0xFD#8 0x00#8) flow = some (0x0102#13, 0#3, 2) := by decide

/-- V8. -/
theorem test_step_btfss_goes_on : after 0x1F8C (start 0x7F#8 0x00#8) flow = some (0x0101#13, 0#3, 1) := by decide

/-- V9. -/
theorem test_step_addlw : after 0x3F0F (start 0x00#8 0x01#8) cws = some (0x00#8, 0x10#8, 0x1A#8) := by decide

/-- S22. -/
theorem test_step_andlw : after 0x395F (start 0x00#8 0xA3#8) cws = some (0x00#8, 0x03#8, 0x18#8) := by decide

/-- S34a. -/
theorem test_step_iorlw : after 0x3835 (start 0x00#8 0x9A#8) cws = some (0x00#8, 0xBF#8, 0x18#8) := by decide

/-- V9. -/
theorem test_step_movlw : after 0x33A5 { start 0x00#8 0x00#8 with status := 0x1C#8 } cws = some (0x00#8, 0xA5#8, 0x1C#8) := by decide

/-- V9. -/
theorem test_step_sublw : after 0x3C10 (start 0x00#8 0x01#8) cws = some (0x00#8, 0x0F#8, 0x19#8) := by decide

/-- V9. -/
theorem test_step_sublw_digit : after 0x3C00 (start 0x00#8 0x80#8) cws = some (0x00#8, 0x80#8, 0x1A#8) := by decide

/-- V9. -/
theorem test_step_xorlw : after 0x3AAF (start 0x00#8 0xB5#8) cws = some (0x00#8, 0x1A#8, 0x18#8) := by decide

/-- V10. -/
theorem test_step_call : after 0x27FF { start 0x00#8 0x00#8 with pclath := 0x18#5 } flow = some (0x1FFF#13, 1#3, 2) := by decide

/-- V10. -/
theorem test_step_goto : after 0x2802 { start 0x00#8 0x00#8 with pclath := 0x1F#5 } flow = some (0x1802#13, 0#3, 2) := by decide

/-- V10. -/
theorem test_step_return : after 0x0008 { start 0x00#8 0x00#8 with stk := Vector.replicate 8 0x0123#13, sp := 1#3, pclath := 0x1F#5 } flow = some (0x0123#13, 0#3, 2) := by decide

/-- V10. -/
theorem test_step_retfie : after 0x0009 { start 0x00#8 0x00#8 with stk := Vector.replicate 8 0x0123#13, sp := 1#3, pclath := 0x1F#5 } (fun t => (t.pc, t.intcon)) = some (0x0123#13, 0x80#8) := by decide

/-- V10. -/
theorem test_step_retlw : after 0x37C3 { start 0x00#8 0x00#8 with stk := Vector.replicate 8 0x0123#13, sp := 1#3, pclath := 0x1F#5 } (fun t => (t.pc, t.w)) = some (0x0123#13, 0xC3#8) := by decide

/-- V11. -/
theorem test_step_clrwdt : after 0x0064 { start 0x00#8 0x00#8 with status := 0xE7#8, presc := 9, wdtCnt := 500 } (fun t => (t.status, t.presc, t.wdtCnt)) = some (0xFF#8, 0x00#8, 1) := by decide

/-- V11. -/
theorem test_step_sleep : after 0x0063 { start 0x00#8 0x00#8 with status := 0xE7#8 } (fun t => (t.status, t.sleeping, t.pc)) = some (0xF7#8, true, 0x0101#13) := by decide

/-- V11. -/
theorem test_step_sleep_as_nop : after 0x0063 { start 0x00#8 0x00#8 with intcon := 0x12#8, wdtCnt := 40 } (fun t => (t.status, t.sleeping, t.wdtCnt)) = some (0x18#8, false, 41) := by decide

/-- V11. -/
theorem test_step_option : after 0x0062 { start 0x00#8 0x5A#8 with status := 0x38#8 } (fun t => t.optionReg) = some 0x5A#8 := by decide

/-- V11. -/
theorem test_step_tris5 : after 0x0065 (start 0x00#8 0xE3#8) (fun t => t.trisa) = some 0x03#5 := by decide

/-- V11. -/
theorem test_step_tris6 : after 0x0066 (start 0x00#8 0xE3#8) (fun t => t.trisb) = some 0xE3#8 := by decide

/-! ### Refusals -/

/-- What a step from `s` is refused for where it fetches `word`. -/
def refusal (word : Nat) (s : State) : Option Refusal :=
  match step (s.withFetchWord 14 word) with
  | .next _ => none
  | .fault _ => none
  | .refused r => some r

theorem test_refused_reserved : refusal 0x3B00 State.reset = some (.reservedWord 0x3B00#14) := by decide

/-- V3, directly and through INDF. -/
theorem test_refused_skip_onto_pcl :
    refusal 0x0B82 State.reset = some .skipOntoPcl
      ∧ refusal 0x0F80 { State.reset with fsr := 0x82#8 } = some .skipOntoPcl := by
  decide

/-- V11. -/
theorem test_refused_tris :
    refusal 0x0065 { State.reset with cfg := { resetConfig with admitTris := false } } = some .trisNotAdmitted := by
  decide

/-! ### States and operands that meet the hypotheses of the obligations -/

/-- A state with a word to fetch at its PC. -/
def fetching (s : State) (word : Nat) : State := s.withFetchWord 14 word

/-- What `exec` answers, as a state. -/
def execNext (i : Instr) (s : State) : Option State :=
  match exec i s with
  | .next t => some t
  | .fault _ => none
  | .refused _ => none

/-- What the step answers, as a state. -/
def stepNext (s : State) : Option State :=
  match step s with
  | .next t => some t
  | .fault _ => none
  | .refused _ => none

theorem exec_of_execNext {i : Instr} {s t : State} (h : execNext i s = some t) : exec i s = .next t := by
  unfold execNext at h
  split at h <;> simp_all

theorem step_of_stepNext {s t : State} (h : stepNext s = some t) : step s = .next t := by
  unfold stepNext at h
  split at h <;> simp_all

theorem exec_next_of_isSome {i : Instr} {s : State} (h : (execNext i s).isSome = true) : ∃ t, exec i s = .next t := by
  obtain ⟨t, ht⟩ := Option.isSome_iff_exists.mp h
  exact ⟨t, exec_of_execNext ht⟩

theorem step_next_of_isSome {s : State} (h : (stepNext s).isSome = true) : ∃ t, step s = .next t := by
  obtain ⟨t, ht⟩ := Option.isSome_iff_exists.mp h
  exact ⟨t, step_of_stepNext ht⟩

theorem test_witness_DecodeFollowsTheOpcodeTable :
    dec 0x3FFF#14 = some (.addlw 0xFF#8) ∧ 0x3FFF#14 &&& (Instr.addlw 0x00#8).row.mask = (Instr.addlw 0x00#8).row.value := by
  decide

theorem test_witness_DecodeReadsEveryOperandBit :
    dec 0x017F#14 = some .clrw ∧ dec 0x37FF#14 = some (.retlw 0xFF#8) := by decide

theorem test_witness_running : State.reset.RunsInstruction :=
  ⟨⟨by decide, by decide, by decide, by decide⟩, by decide⟩

/-- The machine runs an instruction after a wake-up, and where a new request waits. -/
theorem test_witness_running_phases :
    ({ State.reset with irqPhase := .afterWake, intcon := 0x90#8 } : State).RunsInstruction
      ∧ ({ State.reset with
          intcon := 0x92#8, cfg := { resetConfig with irqExtra := some true } } : State).RunsInstruction :=
  ⟨⟨⟨by decide, by decide, by decide, by decide⟩, by decide⟩, ⟨⟨by decide, by decide, by decide, by decide⟩, by decide⟩⟩

theorem test_witness_ReservedWordsAreRefused :
    (fetching State.reset 0x007F).RunsInstruction ∧ reservedWord (fetching State.reset 0x007F).fetch = true
      ∧ reservedWord 0x3BFF#14 = true ∧ reservedWord 0x3B00#14 = true ∧ reservedWord 0x0066#14 = false
      ∧ dec 0x017F#14 = some .clrw
      ∧ 0x017F#14 &&& ~~~Instr.clrw.dontCare = 0x0100#14 &&& ~~~Instr.clrw.dontCare :=
  ⟨⟨⟨by decide, by decide, by decide, by decide⟩, by decide⟩, by decide, by decide, by decide, by decide, by decide,
    by decide⟩

theorem test_witness_StepRunsTheDecodedInstruction :
    (fetching State.reset 0x0A8C).RunsInstruction ∧ dec (fetching State.reset 0x0A8C).fetch = some (.incf 0x0C#7 .f)
      ∧ (execNext (.incf 0x0C#7 .f)
          { fetching State.reset 0x0A8C with inReset := false, irqPhase := State.phaseDuring State.reset }).isSome = true
      ∧ dec (fetching State.reset 0x0B82).fetch = some (.decfsz 0x02#7 .f)
      ∧ refusal 0x0B82 State.reset = some .skipOntoPcl :=
  ⟨⟨⟨by decide, by decide, by decide, by decide⟩, by decide⟩, by decide, by decide, by decide, by decide⟩

/-- A state with data in every array and a data EEPROM write in progress. -/
def busy : State :=
  { fetching State.reset 0x0A8C with
    ram := [(0x0C, 0x05#8), (0x4F, 0x77#8)], eeprom := [(0x00, 0x12#8), (0x3F, 0x00#8)], eeBusy := true,
    eecon1 := 0b00110#5, eeWAddr := 0x05#8, eeWData := 0xA7#8, eeTimer := 3, wdtCnt := 17999 }

theorem busy_inv : busy.Inv where
  ramForm := by decide
  ramRange := by decide
  eepromForm := by decide
  eepromRange := by decide
  progForm := by decide
  progRange := by decide
  rdClear := by decide
  wrBusy := by decide
  asleep := by decide
  oneOrTwo := by decide
  held := by decide
  wdtBound := by decide
  eeBound := by decide

/-- Asleep the invariant holds of a state as well. -/
theorem asleep_inv : ({ busy with sleeping := true, status := 0x10#8 } : State).Inv where
  ramForm := by decide
  ramRange := by decide
  eepromForm := by decide
  eepromRange := by decide
  progForm := by decide
  progRange := by decide
  rdClear := by decide
  wrBusy := by decide
  asleep := by decide
  oneOrTwo := by decide
  held := by decide
  wdtBound := by decide
  eeBound := by decide

theorem test_witness_InvariantKeptByEveryStep : busy.Inv ∧ ∃ t, step busy = .next t :=
  ⟨busy_inv, step_next_of_isSome (by decide)⟩

/-- The bounds of the two ranges of general purpose registers and of the hole above them, on both sizes. -/
theorem test_witness_DataAddressMap :
    0x0C ≤ Device.f83.gprTop ∧ Device.f83.gprTop = 0x2F ∧ Device.f84.gprTop = 0x4F ∧ Device.f84.gprTop < 0x7F
      ∧ decodeAddr .f83 0x2F#8 = .gpr 0x2F ∧ decodeAddr .f83 0x30#8 = .unimplemented
      ∧ decodeAddr .f84 0xCF#8 = .gpr 0x4F ∧ decodeAddr .f84 0xD0#8 = .unimplemented
      ∧ decodeAddr .f84 0x8C#8 = .gpr 0x0C ∧ decodeAddr .f84 0xFF#8 = .unimplemented := by
  decide

theorem test_witness_OperandResolution :
    (0x7F#7 : FileAddr) ≠ 0x00#7 ∧ (0x80#8 : Byte).toNat % 0x80 = 0 ∧ (0x81#8 : Byte).toNat % 0x80 ≠ 0
      ∧ resolve 0x00#7 { State.reset with fsr := 0x80#8 } = .null
      ∧ resolve 0x00#7 { State.reset with fsr := 0x81#8 } = .optionReg
      ∧ (0xD8#8 : Byte).getLsbD 5 = State.reset.status.getLsbD 5 := by
  decide

theorem test_witness_BankMirrorOfGeneralRegisters :
    0x0C ≤ (0x0C#7 : FileAddr).toNat ∧ 0x0C ≤ (0x7F#7 : FileAddr).toNat
      ∧ resolve 0x0C#7 { State.reset with status := 0x20#8 } = .gpr 0x0C := by
  decide

theorem test_witness_GeneralRegisterWrite : Memory.wf ramFill busy.ram := by decide

theorem test_witness_FileInstructionFrame :
    (Instr.incf 0x0C#7 .f).fileDest = some (0x0C#7, .f) ∧ (∃ t, exec (.incf 0x0C#7 .f) busy = .next t)
      ∧ (Instr.rlf 0x06#7 .w).fileDest = some (0x06#7, .w) ∧ (∃ t, exec (.rlf 0x06#7 .w) busy = .next t)
      ∧ Memory.wf ramFill busy.ram :=
  ⟨by decide, exec_next_of_isSome (by decide), by decide, exec_next_of_isSome (by decide), by decide⟩

theorem test_witness_StatusDestination :
    FlagUpdate.none.isEmpty = true ∧ (⟨some true, none, none⟩ : FlagUpdate).isEmpty = false
      ∧ resolve 0x03#7 State.reset = .status ∧ resolve 0x00#7 { State.reset with fsr := 0x83#8 } = .status := by
  decide

theorem test_witness_PclDestination :
    resolve 0x02#7 State.reset = .pcl ∧ resolve 0x00#7 { State.reset with fsr := 0x82#8 } = .pcl := by decide

/-- DECFSZ and INCFSZ at the values where they skip and beside them. -/
theorem test_witness_SkipOnZeroResults :
    (Dest.f = Dest.f ∧ resolve 0x02#7 State.reset = .pcl) ∧ ¬(Dest.f = Dest.f ∧ resolve 0x0C#7 State.reset = .pcl)
      ∧ ((State.reset.setGpr 0x0C 0x01#8).operand 0x0C#7).toNat = 1
      ∧ ((State.reset.setGpr 0x0C 0x02#8).operand 0x0C#7).toNat ≠ 1
      ∧ ((State.reset.setGpr 0x0C 0xFF#8).operand 0x0C#7).toNat = 255
      ∧ ((State.reset.setGpr 0x0C 0x00#8).operand 0x0C#7).toNat ≠ 255 := by
  decide

theorem test_witness_BitTestResults :
    ((State.reset.setGpr 0x0C 0x7F#8).operand 0x0C#7).getLsbD (7#3 : BitNo).toNat = false
      ∧ ((State.reset.setGpr 0x0C 0x01#8).operand 0x0C#7).getLsbD (0#3 : BitNo).toNat = true := by
  decide

theorem test_witness_CallAndGotoResults : (7#3 : BitVec 3) ≠ State.reset.sp ∧ (1#3 : BitVec 3) ≠ State.reset.sp := by
  decide

theorem test_witness_SleepResult :
    State.reset.wakePending = false ∧ ({ State.reset with intcon := 0x12#8 } : State).wakePending = true
      ∧ ({ State.reset with intcon := 0x40#8, eecon1 := 0x10#5 } : State).wakePending = true := by
  decide

theorem test_witness_TrisResults :
    State.reset.cfg.admitTris = true ∧ ({ resetConfig with admitTris := false } : RunConfig).admitTris = false := by decide

theorem test_witness_EveryInstructionCompletes :
    (Instr.decfsz 0x00#7 .f).wellFormed State.reset.cfg.admitTris = true
      ∧ ¬(Dest.f = Dest.f ∧ resolve 0x00#7 State.reset = .pcl)
      ∧ Instr.trisB.wellFormed State.reset.cfg.admitTris = true := by
  decide

theorem test_witness_OnlyClrwdtAndSleepChangeToPd :
    (∃ t, exec (.movwf 0x03#7) State.reset = .next t) ∧ Instr.movwf 0x03#7 ≠ .clrwdt ∧ Instr.movwf 0x03#7 ≠ .sleep :=
  ⟨exec_next_of_isSome (by decide), by decide, by decide⟩

theorem test_witness_OnlyCallsAndReturnsTouchTheStack :
    (∃ t, exec (.movwf 0x02#7) State.reset = .next t) ∧ (∀ k, Instr.movwf 0x02#7 ≠ .call k)
      ∧ Instr.movwf 0x02#7 ≠ .ret ∧ (∀ k, Instr.movwf 0x02#7 ≠ .retlw k) ∧ Instr.movwf 0x02#7 ≠ .retfie :=
  ⟨exec_next_of_isSome (by decide), by simp, by decide, by simp, by decide⟩

/-- Addresses one program memory apart, and the last word and the first of the next copy. -/
theorem test_witness_ProgramMemoryNeverChanges :
    (∃ t, step busy = .next t) ∧ Memory.wf progFill busy.prog
      ∧ (0x0020#13 : PAddr).toNat % busy.cfg.device.pmWords = (0x0420#13 : PAddr).toNat % busy.cfg.device.pmWords
      ∧ (0x03FF#13 : PAddr).toNat % busy.cfg.device.pmWords ≠ (0x0400#13 : PAddr).toNat % busy.cfg.device.pmWords
      ∧ (0x0400#13 : PAddr).toNat % busy.cfg.device.pmWords = busy.pc.toNat % busy.cfg.device.pmWords :=
  ⟨step_next_of_isSome (by decide), by decide, by decide, by decide, by decide⟩

/-- A cell beside the one being written; a write that goes on after the step; a step with none in progress; a reset where none
is. -/
theorem test_witness_OnlyTheLatchedEepromCellChanges :
    (∃ t, exec (.bsf 0x08#7 1#3) { busy with status := 0x38#8 } = .next t)
      ∧ busy.Inv ∧ (stepNext busy).map (fun t => t.eeWAddr.toNat % 64) = some 5 ∧ 0x3F ≠ 5
      ∧ (stepNext busy).map (fun t => t.eeBusy) = some true
      ∧ (busy.resetRequest = none ∧ (stepNext busy).map (fun t => t.eecon1.getLsbD 4) = some false)
      ∧ (State.reset.eeBusy = false ∧ State.reset.eeSeq ≠ .gotAA ∧ ∃ t, step State.reset = .next t)
      ∧ ∃ t, step { State.reset with eeSeq := .gotAA, wdtTimeout := true } = .next t :=
  ⟨exec_next_of_isSome (by decide), busy_inv, by decide, by decide, by decide, ⟨by decide, by decide⟩,
    ⟨by decide, by decide, step_next_of_isSome (by decide)⟩, step_next_of_isSome (by decide)⟩

/-- Nine pushes: the first place that is still held and the last one. -/
theorem test_witness_StackIsCircular :
    let vs : List PAddr := List.replicate 9 0x0123#13
    (vs.length ≤ 1 + 8 ∧ 1 < vs.length) ∧ (vs.length ≤ 8 + 8 ∧ 8 < vs.length) ∧ (1#3 : BitVec 3) ≠ State.reset.sp := by
  decide

/-- A requested interrupt: INTE, INTF and GIE. -/
def requested (phase : IrqPhase) (extra : Bool) : State :=
  { State.reset with intcon := 0x92#8, irqPhase := phase, cfg := { resetConfig with irqExtra := some extra } }

theorem test_witness_InterruptRecognition :
    (requested .delayed false).Running ∧ (requested .delayed false).irqRequest = true
      ∧ (requested .delayed true).irqPhase = .delayed
      ∧ ((requested .fresh false).irqPhase = .fresh ∧ (requested .fresh false).irqWaits = false)
      ∧ ((requested .fresh true).irqPhase = .fresh ∧ (requested .fresh true).irqWaits = true)
      ∧ (requested .fresh true).cfg.irqExtra = some true :=
  ⟨⟨by decide, by decide, by decide, by decide⟩, by decide, by decide, by decide, by decide, by decide⟩

/-- Asleep, with an RB0/INT request where `ic` has one. -/
def asleep (ic : Byte) : State := { State.reset with sleeping := true, status := 0x10#8, intcon := ic }

/-- The wake-up; a unit of the start-up time, its last; and the boundary after it. -/
theorem test_witness_RequestWakesTheDevice :
    (asleep 0x12#8).resetRequest = none ∧ (asleep 0x12#8).pins.mclrLow = false ∧ (asleep 0x12#8).sleeping = true
      ∧ (asleep 0x12#8).ostLeft = 0 ∧ (asleep 0x12#8).wakePending = true ∧ (asleep 0x12#8).cfg.ostCycles = 0
      ∧ (asleep 0x12#8).wdtTimeout = false ∧ (∃ t, step (asleep 0x12#8) = .next t)
      ∧ (({ busy with ostLeft := 1 } : State).resetRequest = none ∧ ({ busy with ostLeft := 1 } : State).pins.mclrLow = false
        ∧ 0 < ({ busy with ostLeft := 1 } : State).ostLeft ∧ ({ busy with ostLeft := 1 } : State).sleeping = false
        ∧ ({ busy with optionReg := 0xF7#8 } : State).optionReg.getLsbD 3 = false)
      ∧ ((requested .afterWake true).resetRequest = none ∧ (requested .afterWake true).pins.mclrLow = false
        ∧ (requested .afterWake true).ostLeft = 0 ∧ (requested .afterWake true).sleeping = false
        ∧ (requested .afterWake true).irqPhase = .afterWake) :=
  ⟨by decide, by decide, by decide, by decide, by decide, by decide, by decide, step_next_of_isSome (by decide), by decide,
    by decide⟩

theorem test_witness_WatchdogTimeOut : (asleep 0x00#8).sleeping = true ∧ State.reset.sleeping = false := by decide

theorem test_witness_SleepKeepsTheRegisters :
    (asleep 0x00#8).resetRequest = none ∧ (asleep 0x00#8).pins.mclrLow = false ∧ (asleep 0x00#8).sleeping = true
      ∧ (asleep 0x00#8).ostLeft = 0 ∧ (∃ t, step (asleep 0x00#8) = .next t)
      ∧ (asleep 0x00#8).wakePending = false ∧ (stepNext (asleep 0x00#8)).map (fun t => t.eeBusy) = some (asleep 0x00#8).eeBusy
      ∧ ({ asleep 0x00#8 with optionReg := 0xF7#8 } : State).optionReg.getLsbD 3 = false :=
  ⟨by decide, by decide, by decide, by decide, step_next_of_isSome (by decide), by decide, by decide, by decide⟩

/-- R306: the wake-up by a request re-samples T0PREV, so an edge on RA4 during SLEEP's own Tick counts no pulse later. -/
theorem test_wake_resamples_t0Prev :
    let s : State := { asleep 0x12#8 with pins := { pinsLow with raLevel := 0x10#5 } }
    (stepNext s).map (fun t => t.t0Prev) = some true ∧ (wdtTimeoutEvent s).t0Prev = true := by
  decide

/-- A raw period of one unit: the shortest, with the postscaler at 1:128 and off. -/
theorem test_witness_WatchdogPeriod :
    let s : State := { State.reset with cfg := { resetConfig with wdtMin := 1, wdtMax := 1 } }
    s.cfg.wdte = true ∧ s.cfg.wdtMin = 1 ∧ s.cfg.wdtMax = 1 ∧ s.wdtCnt = 0 ∧ s.sleeping = false ∧ s.wdtTimeout = false
      ∧ s.psa = true ∧ s.presc = 0x00#8 ∧ (127 < 2 ^ s.ps * 1 ∧ 128 = 2 ^ s.ps * 1)
      ∧ ({ s with optionReg := 0xF7#8 } : State).psa = false ∧ (0 < 1 * 1 ∧ 1 = 1 * 1)
      ∧ ({ s with sleeping := true } : State).sleeping = true := by
  decide

theorem test_witness_DisabledWatchdogNeverTimesOut :
    let c : RunConfig := { resetConfig with configWord := 0x3FFB#14 }
    c.wdte = false ∧ (∃ t, step { busy with cfg := c } = .next t) ∧ busy.wdtTimeout = false
      ∧ (∃ t, step { asleep 0x00#8 with cfg := c } = .next t) ∧ (asleep 0x00#8).resetRequest = none
      ∧ (asleep 0x00#8).sleeping = true ∧ (asleep 0x00#8).wakePending = false ∧ (asleep 0x00#8).ostLeft = 0 :=
  ⟨by decide, step_next_of_isSome (by decide), by decide, step_next_of_isSome (by decide), by decide, by decide, by decide,
    by decide⟩

/-- The pins of a Power-on Reset pulse, of MCLR low, and of neither. -/
theorem test_witness_ResetRequests :
    let por : State := { State.reset with pins := { pinsLow with powerOn := true } }
    let low : State := { State.reset with pins := { pinsLow with mclrLow := true } }
    por.pins.powerOn = true
      ∧ (low.pins.powerOn = false ∧ low.pins.mclrLow = true ∧ ({ low with inReset := true } : State).inReset = true)
      ∧ (low.inReset = false ∧ ({ low with sleeping := true } : State).sleeping = true)
      ∧ (low.sleeping = false ∧ low.wdtTimeout = false)
      ∧ (State.reset.pins.powerOn = false ∧ State.reset.pins.mclrLow = false ∧ State.reset.sleeping = false
        ∧ ({ State.reset with wdtTimeout := true } : State).wdtTimeout = true)
      ∧ (({ asleep 0x00#8 with wdtTimeout := true } : State).sleeping = true ∧ State.reset.wdtTimeout = false) := by
  decide

theorem test_witness_WarmResetTable :
    ResetKind.mclrRun ≠ .por ∧ ResetKind.mclrSleep ≠ .por ∧ ResetKind.wdtRun ≠ .por ∧ Memory.wf eepromFill busy.eeprom
      ∧ busy.eeBusy = true ∧ ¬(busy.eeBusy = true ∧ 0x3F = busy.eeWAddr.toNat % 64) := by
  decide

theorem test_witness_PowerOnResetTable :
    Memory.wf eepromFill busy.eeprom ∧ ¬(busy.eeBusy = true ∧ 0x3F = busy.eeWAddr.toNat % 64) := by decide

theorem test_witness_Timer0CountsAfterAWrite :
    ({ State.reset with optionReg := 0xDF#8 } : State).t0cs = false ∧ ({ State.reset with optionReg := 0xD0#8 } : State).t0cs = false := by
  decide

/-- RA4/T0CKI rises, once and with two further edges; the prescaler is the Watchdog's, and Timer0's; and it falls. -/
theorem test_witness_CounterModeCountsSelectedEdges :
    let s : State := { State.reset with optionReg := 0xE8#8, pins := { pinsLow with raLevel := 0x10#5 } }
    let u : State := { s with optionReg := 0xE0#8, presc := 0x01#8, pins := { s.pins with t0Edges := 2 } }
    (s.t0Skip = false ∧ s.t0cs = true ∧ s.psa = true ∧ s.optionReg.getLsbD 4 = false
        ∧ 1 = (if (!s.t0Prev && s.pinA 4) = true then 1 else 0) + s.pins.t0Edges)
      ∧ (u.t0Skip = false ∧ u.t0cs = true ∧ u.psa = false ∧ u.optionReg.getLsbD 4 = false
        ∧ 3 = (if (!u.t0Prev && u.pinA 4) = true then 1 else 0) + u.pins.t0Edges)
      ∧ ({ State.reset with optionReg := 0xF8#8, t0Prev := true } : State).optionReg.getLsbD 4 = true := by
  decide

theorem test_witness_PinLevels :
    let s : State := { State.reset with trisa := 0x00#5, trisb := 0x7F#8, lata := 0x08#5, latb := 0x80#8 }
    (s.trisa.getLsbD 3 = false ∧ State.reset.trisa.getLsbD 4 = true ∧ State.reset.pins.raDriven.getLsbD 4 = true)
      ∧ (s.trisa.getLsbD 4 = false ∧ s.lata.getLsbD 4 = false)
      ∧ (({ s with lata := 0x1F#5 } : State).lata.getLsbD 4 = true ∧ s.pins.raDriven.getLsbD 4 = true)
      ∧ s.trisb.getLsbD 7 = false ∧ (s.trisb.getLsbD 0 = true ∧ s.pins.rbDriven.getLsbD 0 = true)
      ∧ (({ s with pins := { pinsLow with rbDriven := 0xFE#8 }, optionReg := 0x7F#8 } : State).pins.rbDriven.getLsbD 0 = false
        ∧ ({ s with optionReg := 0x7F#8 } : State).optionReg.getLsbD 7 = false) := by
  decide

theorem test_witness_InterruptPinDetectors :
    State.reset.optionReg.getLsbD 6 = true ∧ ({ State.reset with optionReg := 0xBF#8 } : State).optionReg.getLsbD 6 = false
      ∧ (State.reset.trisb.getLsbD (3 + 4) = true
        ∧ ({ State.reset with rbold := 0b1000#4 } : State).pinB (3 + 4)
          ≠ ({ State.reset with rbold := 0b1000#4 } : State).rbold.getLsbD 3)
      ∧ State.reset.pinQueue = [] ∧ ({ State.reset with pinQueue := [pinsLow] } : State).pinQueue = pinsLow :: [] := by
  decide

/-- A write that starts, one that does not, and a read while a write of another cell, or of none, is in progress. -/
theorem test_witness_Eecon1Write :
    let s : State := { State.reset with eecon1 := 0b00100#5, eeSeq := .gotAA }
    ((0x06#8 : Byte).getLsbD 1 = true ∧ s.eecon1.getLsbD 1 = false ∧ s.eecon1.getLsbD 2 = true ∧ s.eeSeq = .gotAA
        ∧ s.eeBusy = false)
      ∧ State.reset.eecon1.getLsbD 2 = false
      ∧ ((0x05#8 : Byte).getLsbD 0 = true ∧ s.eeBusy = false ∧ (0x04#8 : Byte).getLsbD 0 = false)
      ∧ busy.eeadr.toNat % 64 ≠ busy.eeWAddr.toNat % 64 := by
  decide

theorem test_witness_EepromUnlockSequence :
    ({ State.reset with eeSeq := .got55 } : State).eeSeq = .got55 ∧ State.reset.eeSeq ≠ .got55
      ∧ (0x54#8 : Byte) ≠ 0x55#8 ∧ (0x54#8 : Byte) ≠ 0xAA#8 ∧ Loc.eedata ≠ .eecon1 ∧ Loc.eedata ≠ .eecon2 := by
  decide

/-- A write time of one unit, the shortest. -/
theorem test_witness_EepromWriteCompletes :
    let s : State := { busy with cfg := { resetConfig with eeMin := 1, eeMax := 1 }, eeTimer := 0 }
    s.cfg.eeMin = 1 ∧ s.cfg.eeMax = 1 ∧ s.eeBusy = true ∧ s.eeTimer = 0 ∧ Memory.wf eepromFill s.eeprom
      ∧ (0 < 1 ∧ 1 = s.cfg.eeMin) := by
  decide

/-- The invariant's premises that a requested reset and a step asleep meet, for the statements about them. -/
theorem test_witness_asleep_steps : ∃ t, step { busy with sleeping := true, status := 0x10#8 } = .next t :=
  step_next_of_isSome (by decide)

end Sys2Proof.Tests
end

section
/-! What an instruction that answers can have done to the stack, the Watchdog, SLEEP, TO and PD, said once (`exec_cases`). -/

namespace Sys2Proof.Machine

variable {s t : State} {i : Instr}

theorem memWrite_lessFileOp (loc : Loc) (v : Byte) (nf : Bool) (s : State) :
    (memWrite loc v nf s).lessFileOp = s.lessFileOp := by
  have h := congrArg State.lessFileOp (memWrite_frame s loc v nf)
  exact h

theorem afterRead_lessFileOp (f : FileAddr) (s : State) : (s.afterRead f).lessFileOp = s.lessFileOp := by
  rw [s.afterRead_frame f]; rfl

theorem stored_lessFileOp (f : FileAddr) (d : Dest) (r : Byte) (nf : Bool) (s : State) :
    (s.stored f d r nf).lessFileOp = s.lessFileOp := by
  cases d with
  | w => exact afterRead_lessFileOp f s
  | f => exact (memWrite_lessFileOp _ _ _ _).trans (afterRead_lessFileOp f s)

theorem skipIf_lessFileOp (b : Bool) (x : PAddr) (s : State) : (skipIf b x s).lessFileOp = s.lessFileOp := by
  unfold skipIf; split <;> rfl

/-- TO and PD of two states are the same. -/
def State.SameToPd (s t : State) : Prop := t.timeOut = s.timeOut ∧ t.powerDown = s.powerDown

theorem setFlags_sameToPd (u : FlagUpdate) (s : State) : s.SameToPd (s.setFlags u) :=
  ⟨(flagsSet_setFlags u s).rest 4 (by decide), (flagsSet_setFlags u s).rest 3 (by decide)⟩

theorem State.SameToPd.trans {u : State} (h : s.SameToPd t) (h' : t.SameToPd u) : s.SameToPd u :=
  ⟨h'.1.trans h.1, h'.2.trans h.2⟩

theorem afterRead_sameToPd (f : FileAddr) (s : State) : s.SameToPd (s.afterRead f) := by
  rw [s.afterRead_frame f]; exact ⟨rfl, rfl⟩

theorem stored_sameToPd (f : FileAddr) (d : Dest) (r : Byte) (nf : Bool) (s : State) :
    s.SameToPd (s.stored f d r nf) := by
  cases d with
  | w => exact afterRead_sameToPd f s
  | f => exact (afterRead_sameToPd f s).trans (memWrite_toPd _ _ _ _)

theorem skipIf_sameToPd (b : Bool) (x : PAddr) (s : State) : s.SameToPd (skipIf b x s) := by
  unfold skipIf; split <;> exact ⟨rfl, rfl⟩

/-- What an instruction that answers has done, sorted by the machine's stack, Watchdog and SLEEP: an ordinary instruction
changes none of them, nor TO and PD; the call, the three returns, CLRWDT and SLEEP (where it sleeps) are left. -/
theorem exec_cases (h : exec i s = .next t) :
    (t.lessFileOp = s.lessFileOp ∧ s.SameToPd t)
    ∨ (∃ k, i = .call k ∧ t = (s.push (s.pc + 1)).jump (s.pageTarget k))
    ∨ (i = .ret ∧ t = s.drop.jump s.top)
    ∨ (∃ k, i = .retlw k ∧ t = { s.drop.jump s.top with w := k })
    ∨ (i = .retfie ∧ t = returnFromInterrupt s)
    ∨ (i = .clrwdt ∧ t = { (clearWdt s).sequential with status := withToPd s.status true true })
    ∨ (i = .sleep ∧ s.wakePending = false
      ∧ t = { (clearWdt s).sequential with status := withToPd s.status true false, sleeping := true }) := by
  rcases exec_shape i s with ⟨f, d, op, _, e⟩ | ⟨f, d, op, _, e⟩ | ⟨f, c, e⟩ | ⟨r, e⟩ | rest
  · rw [e, fileOp_eq] at h
    cases h
    exact Or.inl ⟨stored_lessFileOp f d _ _ s, (stored_sameToPd f d _ _ s).trans (setFlags_sameToPd _ _)⟩
  · rw [e, skipOp_eq] at h
    split at h <;> cases h
    exact Or.inl ⟨(skipIf_lessFileOp _ _ _).trans (stored_lessFileOp f d _ _ s),
      (stored_sameToPd f d _ _ s).trans (skipIf_sameToPd _ _ _)⟩
  · rw [e, bitTest_eq] at h
    cases h
    exact Or.inl ⟨(skipIf_lessFileOp _ _ _).trans (afterRead_lessFileOp f s),
      (afterRead_sameToPd f s).trans (skipIf_sameToPd _ _ _)⟩
  · rw [e] at h
    cases h
    exact Or.inl ⟨rfl, setFlags_sameToPd r.flags _⟩
  · rcases rest with rfl | ⟨k, rfl⟩ | rfl | ⟨k, rfl⟩ | rfl | ⟨k, rfl⟩ | rfl | rfl | rfl | rfl | rfl
    · cases h; exact Or.inl ⟨rfl, rfl, rfl⟩
    · cases h; exact Or.inr (Or.inl ⟨k, rfl, rfl⟩)
    · cases h; simp
    · cases h; exact Or.inl ⟨rfl, rfl, rfl⟩
    · cases h; simp
    · cases h; simp
    · cases h; simp
    · rcases execSleep_next h with ⟨_, rfl⟩ | ⟨hw, rfl⟩
      · exact Or.inl ⟨rfl, rfl, rfl⟩
      · simp [hw]
    · cases h; exact Or.inl ⟨rfl, rfl, rfl⟩
    · rw [(execTrisA_next h).2]; exact Or.inl ⟨rfl, rfl, rfl⟩
    · rw [(execTrisB_next h).2]; exact Or.inl ⟨rfl, rfl, rfl⟩

end Sys2Proof.Machine
end

section
/-! The invariant, operation by operation: what each agent beside the CPU, each reset and each instruction does to it. -/

namespace Sys2Proof.Machine

variable {s t : State} {i : Instr}

/-! ### The clauses that no phase of the machine enters -/

/-- The clauses of `State.Inv` that hold alike awake, asleep and in reset: all but `asleep` and `held`. Tied to the
invariant by `State.Inv.data` and `State.DataInv.inv`. -/
structure State.DataInv (s : State) : Prop where
  ramForm : Memory.wf ramFill s.ram
  ramRange : Memory.within gprBottom s.cfg.device.gprTop s.ram
  eepromForm : Memory.wf eepromFill s.eeprom
  eepromRange : Memory.within 0 0x3F s.eeprom
  progForm : Memory.wf progFill s.prog
  progRange : Memory.within 0 (s.cfg.device.pmWords - 1) s.prog
  rdClear : s.eecon1.getLsbD 0 = false
  wrBusy : s.eecon1.getLsbD 1 = s.eeBusy
  oneOrTwo : s.cycles = 1 ∨ s.cycles = 2
  wdtBound : s.cfg.wdtMin ≤ s.cfg.wdtMax → 0 < s.cfg.wdtMax → s.wdtCnt < s.cfg.wdtMax
  eeBound : s.cfg.eeMin ≤ s.cfg.eeMax → 0 < s.cfg.eeMax → s.eeBusy = true → s.eeTimer < s.cfg.eeMax

theorem State.Inv.data (h : s.Inv) : s.DataInv := { h with }

/-- Awake and out of reset the other two clauses say nothing. -/
theorem State.DataInv.inv (h : s.DataInv) (hs : s.sleeping = false) (hr : s.inReset = false) : s.Inv :=
  { h with
    asleep := fun h' => absurd (hs.symm.trans h') (by simp)
    held := fun h' => absurd (hr.symm.trans h') (by simp) }

/-! ### Bits of the registers the invariant reads -/

/-- Setting another flag leaves GIE alone. -/
theorem setFlag_bit7 {ic m : Byte} (b : Bool) (hm : m.getLsbD 7 = false) :
    (if b then ic ||| m else ic).getLsbD 7 = ic.getLsbD 7 := by
  split
  · rw [BitVec.getLsbD_or, hm, Bool.or_false]
  · rfl

theorem eeCell_lt (a : Byte) : eeCell a ≤ 0x3F := by
  have h := (a.extractLsb' 0 6).isLt
  unfold eeCell
  omega

/-! ### The agents beside the CPU -/

/-- Of INTCON the invariant reads GIE only. -/
theorem setIntcon_inv (h : s.Inv) {ic : Byte} (hg : ic.getLsbD 7 = s.intcon.getLsbD 7) :
    ({ s with intcon := ic } : State).Inv :=
  { h with
    held := fun hr => by
      obtain ⟨hpc, hgie, hb⟩ := h.held hr
      exact ⟨hpc, hg.trans hgie, hb⟩ }

theorem intPinCycle_inv (h : s.Inv) : (intPinCycle s).Inv := { setIntcon_inv h (setFlag_bit7 s.intPinEdge rfl) with }

theorem rbChangeCycle_inv (h : s.Inv) : (rbChangeCycle s).Inv := setIntcon_inv h (setFlag_bit7 s.rbMismatch rfl)

/-- Two states that agree but for Timer0's fields differ in those six fields at most. -/
theorem eq_of_lessTimer0 (e : t.lessTimer0 = s.lessTimer0) :
    t = { s with tmr0 := t.tmr0, presc := t.presc, t0Sync := t.t0Sync, t0Skip := t.t0Skip, t0Prev := t.t0Prev,
                 intcon := t.intcon } := by
  have h := congrArg (fun x : State => { x with
    tmr0 := t.tmr0, presc := t.presc, t0Sync := t.t0Sync, t0Skip := t.t0Skip, t0Prev := t.t0Prev,
    intcon := t.intcon }) e
  exact h

theorem timer0Cycle_inv (h : s.Inv) : (timer0Cycle s).Inv := by
  have hg : (timer0Cycle s).intcon.getLsbD 7 = s.intcon.getLsbD 7 := by
    rw [timer0Cycle_intcon]; exact setFlag_bit7 _ rfl
  have e := eq_of_lessTimer0 (timer0Cycle_frame s)
  generalize timer0Cycle s = u at hg e
  rw [e]
  exact { setIntcon_inv h hg with }

/-- A write that completes leaves RD and WR 0 and the byte in its cell, however long it ran (R317). -/
theorem eeComplete_inv (h : s.Inv) (n : Nat) : (eeComplete { s with eeTimer := n }).Inv :=
  { h with
    eepromForm := Memory.write_wf h.eepromForm _ _
    eepromRange := Memory.write_within h.eepromRange ⟨Nat.zero_le _, eeCell_lt _⟩ _
    rdClear := by
      show ((s.eecon1 &&& 0b11101#5) ||| 0b10000#5).getLsbD 0 = false
      rw [BitVec.getLsbD_or, BitVec.getLsbD_and, h.rdClear]; rfl
    wrBusy := by
      show ((s.eecon1 &&& 0b11101#5) ||| 0b10000#5).getLsbD 1 = false
      rw [BitVec.getLsbD_or, BitVec.getLsbD_and, show (0b11101#5).getLsbD 1 = false from rfl, Bool.and_false]; rfl
    held := fun hr => by
      obtain ⟨hpc, hgie, _⟩ := h.held hr
      exact ⟨hpc, hgie, rfl⟩
    eeBound := fun _ _ hb => absurd hb (by simp [eeComplete]) }

theorem eeTimerCycle_inv (h : s.Inv) : (eeTimerCycle s).Inv := by
  rcases eeTimerCycle_cases s with ⟨_, e⟩ | ⟨_, hd, e⟩ | ⟨_, _, e⟩ <;> rw [e]
  · exact h
  · exact { h with eeBound := fun hl _ _ => due_false hd hl }
  · exact eeComplete_inv h _

/-- Leaving SLEEP: the clause about the time asleep no longer speaks of the state. -/
theorem wake_inv (h : s.Inv) : (wake s).Inv :=
  { h with asleep := fun h' => absurd h' (by simp [wake]) }

theorem wakeByRequest_inv (h : s.Inv) : (wakeByRequest s).Inv := { wake_inv h with }

theorem wdtTimeoutEvent_inv (h : s.Inv) : (wdtTimeoutEvent s).Inv := by
  unfold wdtTimeoutEvent
  split
  · exact { h with asleep := fun h' => absurd h' (by simp [wakeByWdt, wake]) }
  · next hs => exact { h with asleep := fun h' => absurd h' hs }

theorem wdtCycle_inv (h : s.Inv) : (wdtCycle s).Inv := by
  obtain ⟨c, p, _, hc, e⟩ := wdtCycle_cases s
  have hcount : ({ s with wdtCnt := c, presc := p } : State).Inv :=
    { h with wdtBound := fun hl h0 => hc hl h0 (h.wdtBound hl h0) }
  rcases e with e | ⟨_, e⟩ <;> rw [e]
  · exact hcount
  · exact wdtTimeoutEvent_inv hcount

theorem advanceEnv_inv (h : s.Inv) : (advanceEnv s).Inv := by
  rw [advanceEnv_eq]; exact { h with }

theorem endCycle_inv (h : s.Inv) : (endCycle s).Inv := by
  rw [endCycle_eq]; exact { h with }

theorem tickCycle_inv (h : s.Inv) : (tickCycle s).Inv :=
  endCycle_inv (wdtCycle_inv (eeTimerCycle_inv (timer0Cycle_inv (rbChangeCycle_inv (intPinCycle_inv h)))))

theorem tick_inv (n : Nat) (h : s.Inv) : (tick n s).Inv := by
  induction n generalizing s with
  | zero => exact h
  | succ n ih => exact ih (tickCycle_inv h)

theorem idleCycle_inv (h : s.Inv) : (idleCycle s).Inv := by
  have hr : ({ rbChangeCycle (intPinCycle s) with t0Prev := s.t0cki } : State).Inv :=
    { rbChangeCycle_inv (intPinCycle_inv h) with }
  exact endCycle_inv (wdtCycle_inv (eeTimerCycle_inv hr))

/-! ### The resets -/

/-- Whatever the state before it was in, a reset leaves the device awake, at the reset vector, with interrupts off and no
write in progress (R342). -/
theorem warmReset_inv (k : ResetKind) (h : s.Inv) : (warmReset k s).Inv :=
  { h with
    eepromForm := by
      show Memory.wf eepromFill (if s.eeBusy then _ else s.eeprom)
      split
      · exact Memory.write_wf h.eepromForm _ _
      · exact h.eepromForm
    eepromRange := by
      show Memory.within 0 0x3F (if s.eeBusy then _ else s.eeprom)
      split
      · exact Memory.write_within h.eepromRange ⟨Nat.zero_le _, eeCell_lt _⟩ _
      · exact h.eepromRange
    rdClear := warmReset_eecon1 (by decide)
    wrBusy := warmReset_eecon1 (by decide)
    asleep := fun h' => absurd h' (by simp [warmReset])
    held := fun _ => ⟨rfl, warmReset_intcon_high (by decide), rfl⟩
    wdtBound := fun _ h0 => h0
    eeBound := fun _ _ hb => absurd hb (by simp [warmReset]) }

theorem porUnknowns_eecon1_low (d : Nat) {n : Nat} (hn : n < 3) :
    (porUnknowns d s).eecon1.getLsbD n = s.eecon1.getLsbD n := by
  show (@BitVec.getLsbD (1 + 1 + 3) (_ ++ _) n) = _
  simp only [BitVec.getLsbD_append, BitVec.getLsbD_extractLsb', hn]
  simp

theorem porUnknowns_gie (d : Nat) : (porUnknowns d s).gie = s.gie := by
  show (@BitVec.getLsbD (7 + 1) (_ ++ _) 7) = _
  simp only [BitVec.getLsbD_append, BitVec.getLsbD_extractLsb']
  rfl

theorem porUnknowns_timeOut (d : Nat) : (porUnknowns d s).timeOut = s.timeOut := by
  show (@BitVec.getLsbD (5 + 3) (_ ++ _) 4) = _
  simp only [BitVec.getLsbD_append, BitVec.getLsbD_extractLsb']
  rfl

theorem porUnknowns_powerDown (d : Nat) : (porUnknowns d s).powerDown = s.powerDown := by
  show (@BitVec.getLsbD (5 + 3) (_ ++ _) 3) = _
  simp only [BitVec.getLsbD_append, BitVec.getLsbD_extractLsb']
  rfl

theorem gprBottom_le_gprTop (dev : Device) : gprBottom ≤ dev.gprTop := by cases dev <;> decide

/-- The unknown registers of a Power-on Reset: the memory drawn lies in the device's range, the bits the invariant reads stay. -/
theorem porUnknowns_inv (d : Nat) (h : s.Inv) : (porUnknowns d s).Inv :=
  { h with
    ramForm := Memory.fillWith_wf h.ramForm _ _
    ramRange := Memory.fillWith_within h.ramRange _ _ le_rfl (by have := gprBottom_le_gprTop s.cfg.device; omega)
    rdClear := (porUnknowns_eecon1_low d (by decide)).trans h.rdClear
    wrBusy := (porUnknowns_eecon1_low d (by decide)).trans h.wrBusy
    asleep := fun hs => by rw [porUnknowns_timeOut, porUnknowns_powerDown]; exact h.asleep hs
    held := fun hr => by rw [porUnknowns_gie]; exact h.held hr }

theorem deviceReset_inv (k : ResetKind) (h : s.Inv) : (deviceReset k s).Inv := by
  by_cases hk : k = .por
  · subst hk; exact porUnknowns_inv _ (warmReset_inv _ h)
  · rw [deviceReset_warm hk]; exact warmReset_inv _ h

theorem takeReset_inv (k : ResetKind) (h : s.Inv) : (takeReset k s).Inv := by
  cases k
  case wdtRun => exact deviceReset_inv .wdtRun h
  all_goals exact advanceEnv_inv (deviceReset_inv _ h)

/-! ### File register writes -/

/-- A write of EECON1 cannot set RD or WR by itself (R312). -/
theorem storeEecon1_dataInv (v : Byte) (h : s.DataInv) :
    ({ s with eecon1 := v.extractLsb' 2 3 ++ s.eecon1.extractLsb' 0 2 } : State).DataInv := by
  have hbit : ∀ n, n < 2 → (v.extractLsb' 2 3 ++ s.eecon1.extractLsb' 0 2 : BitVec 5).getLsbD n = s.eecon1.getLsbD n := by
    intro n hn
    show (@BitVec.getLsbD (3 + 2) (_ ++ _) n) = _
    simp only [BitVec.getLsbD_append, BitVec.getLsbD_extractLsb', hn]
    simp
  exact { h with rdClear := (hbit 0 (by decide)).trans h.rdClear, wrBusy := (hbit 1 (by decide)).trans h.wrBusy }

theorem eeReadOp_dataInv (h : s.DataInv) : (eeReadOp s).DataInv := by
  unfold eeReadOp; split <;> exact { h with }

/-- A write that starts sets WR and begins to count its time (R315). -/
theorem eeStartWrite_dataInv (old : Bool) (h : s.DataInv) : (eeStartWrite old s).DataInv := by
  unfold eeStartWrite
  split
  · exact { h with
      rdClear := by rw [BitVec.getLsbD_or, h.rdClear]; rfl
      wrBusy := by rw [BitVec.getLsbD_or, show (0b00010#5).getLsbD 1 = true from rfl, Bool.or_true]
      eeBound := fun _ h0 _ => h0 }
  · exact { h with }

theorem writeEecon1_dataInv (v : Byte) (h : s.DataInv) : (writeEecon1 v s).DataInv := by
  have h1 := storeEecon1_dataInv v h
  have h2 := eeReadOp_dataInv h1
  simp only [writeEecon1]
  split <;> split
  · exact eeStartWrite_dataInv _ h2
  · exact eeStartWrite_dataInv _ h1
  · exact { h2 with }
  · exact { h1 with }

theorem memWrite_dataInv {loc : Loc} (hl : ∀ a, loc = .gpr a → gprBottom ≤ a ∧ a ≤ s.cfg.device.gprTop) (v : Byte)
    (nf : Bool) (h : s.DataInv) : (memWrite loc v nf s).DataInv := by
  cases loc
  case gpr a =>
    exact { h with ramForm := Memory.write_wf h.ramForm _ _, ramRange := Memory.write_within h.ramRange (hl a rfl) _ }
  case eecon1 => exact writeEecon1_dataInv v h
  case pcl => exact { h with oneOrTwo := Or.inr rfl }
  all_goals exact { h with }

theorem afterRead_dataInv (f : FileAddr) (h : s.DataInv) : (s.afterRead f).DataInv := by
  rw [s.afterRead_frame f]; exact { h with oneOrTwo := Or.inl rfl }

theorem stored_dataInv (f : FileAddr) (d : Dest) (r : Byte) (nf : Bool) (h : s.DataInv) : (s.stored f d r nf).DataInv := by
  have ha := afterRead_dataInv f h
  cases d with
  | w => exact { ha with }
  | f =>
    refine memWrite_dataInv (fun a e => ?_) r nf ha
    rw [s.afterRead_frame f]; exact resolve_range s e

theorem jump_dataInv (x : PAddr) (h : s.DataInv) : (s.jump x).DataInv := { h with oneOrTwo := Or.inr rfl }

theorem sequential_dataInv (h : s.DataInv) : s.sequential.DataInv := { h with oneOrTwo := Or.inl rfl }

theorem skipIf_dataInv (b : Bool) (x : PAddr) (h : s.DataInv) : (skipIf b x s).DataInv := by
  unfold skipIf
  split
  · exact jump_dataInv _ h
  · exact h

theorem clearWdt_dataInv (h : s.DataInv) : (clearWdt s).DataInv := { h with wdtBound := fun _ h0 => h0 }

/-! ### Instructions -/

/-- Every instruction keeps the clauses that no phase of the machine enters. -/
theorem exec_dataInv (h : s.DataInv) (he : exec i s = .next t) : t.DataInv := by
  rcases exec_shape i s with ⟨f, d, op, _, e⟩ | ⟨f, d, op, _, e⟩ | ⟨f, c, e⟩ | ⟨r, e⟩ | rest
  · rw [e, fileOp_eq] at he
    cases he
    exact { stored_dataInv f d _ _ h with }
  · rw [e, skipOp_eq] at he
    split at he <;> cases he
    exact skipIf_dataInv _ _ (stored_dataInv f d _ _ h)
  · rw [e, bitTest_eq] at he
    cases he
    exact skipIf_dataInv _ _ (afterRead_dataInv f h)
  · rw [e] at he
    cases he
    exact { sequential_dataInv h with }
  · rcases rest with rfl | ⟨k, rfl⟩ | rfl | ⟨k, rfl⟩ | rfl | ⟨k, rfl⟩ | rfl | rfl | rfl | rfl | rfl
    · cases he; exact sequential_dataInv h
    · cases he; exact { h with oneOrTwo := Or.inr rfl }
    · cases he; exact { sequential_dataInv (clearWdt_dataInv h) with }
    · cases he; exact jump_dataInv _ h
    · cases he; exact { h with oneOrTwo := Or.inr rfl }
    · cases he; exact { h with oneOrTwo := Or.inr rfl }
    · cases he; exact { h with oneOrTwo := Or.inr rfl }
    · rcases execSleep_next he with ⟨_, rfl⟩ | ⟨_, rfl⟩
      · exact sequential_dataInv h
      · exact { sequential_dataInv (clearWdt_dataInv h) with }
    · cases he; exact { sequential_dataInv h with }
    · rw [(execTrisA_next he).2]; exact { sequential_dataInv h with }
    · rw [(execTrisB_next he).2]; exact { sequential_dataInv h with }

/-- An instruction that runs awake and out of reset, with no time-out waiting, keeps the invariant. -/
theorem exec_inv (h : s.Inv) (hs : s.sleeping = false) (hr : s.inReset = false) (hw : s.wdtTimeout = false)
    (ho : s.ostLeft = 0) (he : exec i s = .next t) : t.Inv := by
  have hd := exec_dataInv h.data he
  obtain ⟨hw', ho', hr', _, _, _⟩ := exec_phase he
  have awake : t.sleeping = s.sleeping → t.Inv := fun e => hd.inv (e.trans hs) (hr'.trans hr)
  rcases exec_cases he with ⟨e, _⟩ | ⟨k, _, rfl⟩ | ⟨_, rfl⟩ | ⟨k, _, rfl⟩ | ⟨_, rfl⟩ | ⟨_, rfl⟩ | ⟨_, _, rfl⟩
  · have e' := congrArg State.sleeping e; exact awake e'
  · exact awake rfl
  · exact awake rfl
  · exact awake rfl
  · exact awake rfl
  · exact awake rfl
  · exact { hd with
      asleep := fun _ => ⟨withToPd_getLsbD s.status true false 4, withToPd_getLsbD s.status true false 3, hw, ho, hr⟩
      held := fun h' => absurd (hr.symm.trans h') (by simp) }

/-! ### The step -/

/-- Where no reset is requested of a running device, no Watchdog reset waits. -/
theorem wdtTimeout_of_noReset (h : s.resetRequest = none) (hm : s.pins.mclrLow = false) (hs : s.sleeping = false) :
    s.wdtTimeout = false := by
  cases hw : s.wdtTimeout with
  | false => rfl
  | true =>
    simp only [State.resetRequest, State.wdtResetDue, hm, hs, hw] at h
    split at h <;> cases h

theorem takeInterrupt_inv (h : s.Inv) (hs : s.sleeping = false) (hr : s.inReset = false) : (takeInterrupt s).Inv := by
  have hd : (interruptEntry { s with irqPhase := .fresh }).DataInv := { h.data with oneOrTwo := Or.inr rfl }
  exact tick_inv 2 (hd.inv hs hr)

/-- Out of reset, the clause about being held in reset says nothing. -/
theorem outOfReset_inv (h : s.Inv) : ({ s with inReset := false } : State).Inv :=
  { h with
    asleep := fun hs => by
      obtain ⟨hto, hpd, hw, ho, _⟩ := h.asleep hs
      exact ⟨hto, hpd, hw, ho, rfl⟩
    held := fun h' => absurd h' (by simp) }

/-- A unit of the oscillator's start-up runs awake: asleep, no start-up time is left. -/
theorem ostStep_inv (h : s.Inv) (ho : 0 < s.ostLeft) : (ostStep s).Inv := by
  refine idleCycle_inv { h with asleep := fun hs => ?_ }
  obtain ⟨_, _, _, ho', _⟩ := h.asleep hs
  omega

/-- Settles O7, by the kinds of step of R231. -/
theorem invariantKeptByEveryStep : Obligations.InvariantKeptByEveryStep := by
  intro s t h hstep
  have hout := outOfReset_inv h
  rcases step_cases hstep with ⟨k, _, rfl⟩ | ⟨_, _, rfl⟩ | ⟨hr, hm, hcase⟩
  · exact takeReset_inv k h
  · exact advanceEnv_inv h
  · rcases hcase with ⟨ho, rfl⟩ | ⟨_, _, _, rfl⟩ | ⟨_, _, _, rfl⟩ | ⟨_, hs, _, rfl⟩
      | ⟨ho, hs, ph, i, u, _, he, rfl⟩
    · exact ostStep_inv hout ho
    · exact wakeByRequest_inv hout
    · exact idleCycle_inv { hout with }
    · exact takeInterrupt_inv hout hs rfl
    · have hw := wdtTimeout_of_noReset hr hm hs
      have hph : ({ s with inReset := false, irqPhase := ph } : State).Inv := { hout with }
      exact tick_inv _ (exec_inv hph hs rfl hw ho he)

end Sys2Proof.Machine
end

section
/-! The register file: the two banks, a general purpose register, STATUS and PCL as destinations. -/

namespace Sys2Proof.Machine

variable (s : State)

/-! ### The bank mirror -/

/-- From 0Ch on the bank takes no part in the address map (R22, R99). -/
theorem decodeLoc_high {dev : Device} {b : Bool} {n : Nat} (h : 0x0C ≤ n) : decodeLoc dev b n = decodeGpr dev n := by
  unfold decodeLoc
  split
  case h_18 => rfl
  all_goals omega

/-- The low seven bits of an operand's address are the operand (R82). -/
theorem ea_low (f : FileAddr) : ((s.ea f).extractLsb' 0 7).toNat = f.toNat := by
  have h := f.isLt
  unfold State.ea
  rw [BitVec.extractLsb'_toNat, BitVec.toNat_append, Nat.shiftRight_zero,
    ← Nat.shiftLeft_add_eq_or_of_lt h, Nat.shiftLeft_eq]
  omega

/-- An operand from 0Ch on names a general purpose register or nothing, whatever STATUS holds. -/
theorem resolve_high {f : FileAddr} (h : 0x0C ≤ f.toNat) : resolve f s = decodeGpr s.cfg.device f.toNat := by
  have hf : f ≠ 0x00#7 := by rintro rfl; simp at h
  unfold resolve
  rw [if_neg hf, decodeAddr, ea_low, decodeLoc_high h]

/-- Settles O11. -/
theorem bankMirrorOfGeneralRegisters : Obligations.BankMirrorOfGeneralRegisters := by
  intro f s v h
  rw [resolve_high _ h, resolve_high _ h]

/-! ### A general purpose register -/

theorem setGpr_gpr (h : Memory.wf ramFill s.ram) (a : Nat) (v : Byte) (n : Nat) :
    (s.setGpr a v).gpr n = if n = a then v else s.gpr n := Memory.read_write h a v n

/-- Settles O14. -/
theorem generalRegisterWrite : Obligations.GeneralRegisterWrite := fun s a v _ h =>
  ⟨setGpr_gpr s h a v, rfl, Memory.write_wf h a v⟩

/-! ### STATUS as destination -/

/-- STATUS after a result went to it (R92): the write first, then the flags over what it left. -/
theorem writeFile_status_getLsbD (v : Byte) (u : FlagUpdate) (n : Nat) :
    (writeFile .status ⟨v, u⟩ s).status.getLsbD n =
      (u.apply (writeStatus v u.isEmpty s.status)).getLsbD n := rfl

theorem FlagUpdate.isEmpty_iff (u : FlagUpdate) : u.isEmpty = true ↔ u = .none := by
  obtain ⟨z, dc, c⟩ := u
  simp [FlagUpdate.isEmpty, FlagUpdate.none, and_assoc]

/-- Bits 7:3 come from the write alone. -/
theorem writeFile_status_high (v : Byte) (u : FlagUpdate) {n : Nat} (h : 3 ≤ n) :
    (writeFile .status ⟨v, u⟩ s).status.getLsbD n = if n < 5 then s.status.getLsbD n else v.getLsbD n := by
  rw [writeFile_status_getLsbD, FlagUpdate.apply_getLsbD, if_neg (by omega), if_neg (by omega), if_neg (by omega),
    writeStatus_getLsbD, if_neg (by omega)]

/-- Bits 7:5 take the result. -/
theorem writeFile_status_top (v : Byte) (u : FlagUpdate) {n : Nat} (h : 5 ≤ n) :
    (writeFile .status ⟨v, u⟩ s).status.getLsbD n = v.getLsbD n := by
  rw [writeFile_status_high s v u (by omega), if_neg (by omega)]

theorem writeFile_status_sameToPd (v : Byte) (u : FlagUpdate) : s.SameToPd (writeFile .status ⟨v, u⟩ s) :=
  ⟨writeFile_status_high s v u (n := 4) (by decide), writeFile_status_high s v u (n := 3) (by decide)⟩

/-- An instruction that affects no flag writes Z, DC and C like the other bits. -/
theorem writeFile_status_noFlags (v : Byte) {u : FlagUpdate} (hu : u.isEmpty = true) {n : Nat} (h : n < 3) :
    (writeFile .status ⟨v, u⟩ s).status.getLsbD n = v.getLsbD n := by
  rw [writeFile_status_getLsbD, hu, (FlagUpdate.isEmpty_iff u).mp hu, FlagUpdate.apply_none, writeStatus_getLsbD,
    if_pos h, if_pos rfl]

/-- Of an instruction that affects flags, STATUS as destination has the flags that any other destination leaves: those of
the logic over the old STATUS. -/
theorem writeFile_status_flags (v : Byte) {u : FlagUpdate} (hu : u.isEmpty = false) :
    (writeFile .status ⟨v, u⟩ s).zero = u.z.getD s.zero
      ∧ (writeFile .status ⟨v, u⟩ s).digitCarry = u.dc.getD s.digitCarry
      ∧ (writeFile .status ⟨v, u⟩ s).carry = u.c.getD s.carry := by
  have hw : ∀ m, m < 3 → (writeStatus v u.isEmpty s.status).getLsbD m = s.status.getLsbD m := fun m hm => by
    rw [writeStatus_getLsbD, if_pos hm, hu]; rfl
  have hf := flagsSet_setFlags u (memWrite .status v u.isEmpty s)
  exact ⟨hf.z.trans (congrArg u.z.getD (hw 2 (by decide))), hf.dc.trans (congrArg u.dc.getD (hw 1 (by decide))),
    hf.c.trans (congrArg u.c.getD (hw 0 (by decide)))⟩

/-- The shape `f,d` with the operand's location named. -/
theorem fileOp_at {f : FileAddr} {loc : Loc} (h : resolve f s = loc) (d : Dest) (op : Byte → AluResult) :
    fileOp f d op s = .next (writeDest loc d (op (memRead loc s).1) (memRead loc s).2.sequential) := by
  unfold fileOp
  rw [h]

theorem exec_clrf (f : FileAddr) : exec (.clrf f) s = fileOp f .f (fun _ => .withZ 0x00#8) s := rfl

/-- CLRF STATUS writes 0 to STATUS with Z affected (R92, R152). -/
theorem exec_clrf_status {f : FileAddr} (h : resolve f s = .status) :
    exec (.clrf f) s = .next (writeFile .status ⟨0x00#8, ⟨some true, none, none⟩⟩ s.sequential) :=
  (exec_clrf s f).trans (fileOp_at s h .f _)

/-- Settles O16. -/
theorem statusDestination : Obligations.StatusDestination := by
  refine ⟨fun v u s => ?_, fun f s hf => ?_⟩
  · obtain ⟨hto, hpd⟩ := writeFile_status_sameToPd s v u
    exact ⟨rfl, fun _ => writeFile_status_top s v u, hto, hpd, fun hu _ => writeFile_status_noFlags s v hu,
      writeFile_status_flags s v⟩
  · obtain ⟨hz, hdc, hc⟩ := writeFile_status_flags s.sequential 0x00#8 (u := ⟨some true, none, none⟩) rfl
    obtain ⟨hto, hpd⟩ := writeFile_status_sameToPd s.sequential 0x00#8 ⟨some true, none, none⟩
    exact ⟨_, exec_clrf_status s hf, fun _ hn => (writeFile_status_top _ _ _ hn).trans BitVec.getLsbD_zero, hz, hdc, hc,
      hto, hpd, rfl⟩

/-! ### PCL as destination -/

/-- PCLATH : v, where a write of v to PCL goes (R95). -/
theorem pclTarget_toNat (v : Byte) : (s.pclath ++ v : PAddr).toNat = s.pclath.toNat * 256 + v.toNat := by
  show (@BitVec.toNat (5 + 8) (_ ++ _)) = _
  rw [BitVec.toNat_append, ← Nat.shiftLeft_add_eq_or_of_lt v.isLt, Nat.shiftLeft_eq]

/-- PCL reads as the low eight bits of the address after the instruction's (R86). -/
theorem memRead_pcl_toNat : ((memRead .pcl s).1).toNat = (s.pc.toNat + 1) % 256 := by
  show ((s.pc + 1).extractLsb' 0 8).toNat = _
  rw [BitVec.extractLsb'_toNat, Nat.shiftRight_zero]
  show (s.pc.toNat + 1) % 2 ^ 13 % 2 ^ 8 = _
  omega

theorem exec_addwf (f : FileAddr) (d : Dest) : exec (.addwf f d) s = fileOp f d (fun a => aluAdd a s.w) s := rfl

theorem exec_decfsz (f : FileAddr) (d : Dest) : exec (.decfsz f d) s = skipOp f d decByte s := rfl

theorem exec_incfsz (f : FileAddr) (d : Dest) : exec (.incfsz f d) s = skipOp f d incByte s := rfl

/-- ADDWF PCL,f (R95): the computed GOTO goes to PCLATH and the eight-bit sum, and sets the sum's flags. -/
theorem exec_addwf_pcl {f : FileAddr} (h : resolve f s = .pcl) :
    exec (.addwf f .f) s = .next (writeFile .pcl (aluAdd (memRead .pcl s).1 s.w) s.sequential) :=
  (exec_addwf s f .f).trans (fileOp_at s h .f _)

theorem writeFile_pcl_pc (r : AluResult) : (writeFile .pcl r s).pc = s.pclath ++ r.value := rfl

theorem writeFile_carry_some {loc : Loc} {r : AluResult} {b : Bool} (h : r.flags.c = some b) :
    (writeFile loc r s).carry = b := by
  refine (FlagUpdate.apply_getLsbD r.flags _ 0).trans ?_
  rw [if_pos rfl, h]; rfl

/-- Settles O17. -/
theorem pclDestination : Obligations.PclDestination := by
  refine ⟨fun v b s => ⟨pclTarget_toNat s v, rfl, rfl⟩, fun f s hf => ?_, fun f s hf => ⟨?_, ?_⟩⟩
  · refine ⟨_, exec_addwf_pcl s hf, rfl, ?_, ?_, rfl⟩
    · rw [writeFile_pcl_pc, pclTarget_toNat, aluAdd_eq, memRead_pcl_toNat]
      simp
    · rw [writeFile_carry_some s.sequential (congrArg (fun r => r.flags.c) (aluAdd_eq _ _)), memRead_pcl_toNat]
  · rw [exec_decfsz, skipOp_eq, if_pos ⟨rfl, hf⟩]
  · rw [exec_incfsz, skipOp_eq, if_pos ⟨rfl, hf⟩]

/-! ### The instructions whose descriptions the source lost -/

theorem exec_subwf (f : FileAddr) (d : Dest) : exec (.subwf f d) s = fileOp f d (fun a => aluSub a s.w) s := rfl

theorem exec_xorwf (f : FileAddr) (d : Dest) : exec (.xorwf f d) s = fileOp f d (fun a => aluXor a s.w) s := rfl

theorem exec_swapf (f : FileAddr) (d : Dest) : exec (.swapf f d) s = fileOp f d (fun a => .plain (swapNibbles a)) s := rfl

theorem exec_xorlw (k : Byte) : exec (.xorlw k) s = literalOp (aluXor s.w k) s := rfl

/-- A result that writes Z only (R31). -/
theorem withZ_eq (r : Byte) : AluResult.withZ r = ⟨r, ⟨some (decide (r = 0x00#8)), none, none⟩⟩ := by
  rw [AluResult.withZ, zeroFlag_eq]

/-- Settles O19. -/
theorem lostDescriptionResults : Obligations.LostDescriptionResults := fun f d k s =>
  ⟨fileResult_of_fileOp s (exec_subwf s f d) (aluSub_eq _ _),
   ⟨s.operand f ^^^ s.w, fun _ => BitVec.getLsbD_xor, fileResult_of_fileOp s (exec_xorwf s f d) (withZ_eq _)⟩,
   fileResult_of_fileOp s (exec_swapf s f d) (congrArg AluResult.plain (swapNibbles_eq _)),
   ⟨s.w ^^^ k, fun _ => BitVec.getLsbD_xor,
    literalResult_of_literalOp s ((exec_xorlw s k).trans (congrArg (literalOp · s) (withZ_eq _)))⟩⟩

end Sys2Proof.Machine
end

section
/-! What the instructions leave alone of TO, PD and the stack, and every step of the program memory and the configuration. -/

namespace Sys2Proof.Machine

variable {s t : State}

/-- Settles O37. -/
theorem onlyClrwdtAndSleepChangeToPd : Obligations.OnlyClrwdtAndSleepChangeToPd := by
  intro i s t h hclr hsleep
  rcases exec_cases h with ⟨_, e⟩ | ⟨k, _, rfl⟩ | ⟨_, rfl⟩ | ⟨k, _, rfl⟩ | ⟨_, rfl⟩ | ⟨e, _⟩ | ⟨e, _⟩
  · exact e
  · exact ⟨rfl, rfl⟩
  · exact ⟨rfl, rfl⟩
  · exact ⟨rfl, rfl⟩
  · exact ⟨rfl, rfl⟩
  · exact absurd e hclr
  · exact absurd e hsleep

/-- Settles O38. -/
theorem onlyCallsAndReturnsTouchTheStack : Obligations.OnlyCallsAndReturnsTouchTheStack := by
  intro i s t h hcall hret hretlw hretfie
  rcases exec_cases h with ⟨e, _⟩ | ⟨k, e, _⟩ | ⟨e, _⟩ | ⟨k, e, _⟩ | ⟨e, _⟩ | ⟨_, rfl⟩ | ⟨_, _, rfl⟩
  · have hstk := congrArg State.stk e
    have hsp := congrArg State.sp e
    exact ⟨hstk, hsp⟩
  · exact absurd e (hcall k)
  · exact absurd e hret
  · exact absurd e (hretlw k)
  · exact absurd e hretfie
  · exact ⟨rfl, rfl⟩
  · exact ⟨rfl, rfl⟩

/-! ### Program memory -/

theorem progRead_eq_of_mod {a b : PAddr} (h : a.toNat % s.cfg.device.pmWords = b.toNat % s.cfg.device.pmWords) :
    s.progRead a = s.progRead b := congrArg (Memory.read progFill s.prog) h

/-- A word loaded where the PC points is what the addresses equal to the PC modulo PM_WORDS read (R100). -/
theorem withFetchWord_progRead (h : Memory.wf progFill s.prog) (w : InstrWord) (a : PAddr) :
    (s.withFetchWord 14 w.toNat).progRead a
      = if a.toNat % s.cfg.device.pmWords = s.pc.toNat % s.cfg.device.pmWords then w else s.progRead a := by
  have hw : BitVec.ofNat 14 (w.toNat % 2 ^ 14) = w := by
    rw [Nat.mod_eq_of_lt w.isLt, BitVec.ofNat_toNat, BitVec.setWidth_eq]
  unfold State.withFetchWord
  rw [hw]
  exact Memory.read_write h _ _ _

/-- The program image and the configuration of two states are the same: what the host fixed before the run (R6). -/
def State.SameImage (s t : State) : Prop := t.prog = s.prog ∧ t.cfg = s.cfg

theorem State.SameImage.after {u : State} (h' : t.SameImage u) (h : s.SameImage t) : s.SameImage u :=
  ⟨h'.1.trans h.1, h'.2.trans h.2⟩

theorem sameImage_of_lessTick (h : t.lessTick = s.lessTick) : s.SameImage t := ⟨lessTick_prog h, lessTick_cfg h⟩

theorem advanceEnv_sameImage (s : State) : s.SameImage (advanceEnv s) := sameImage_of_lessTick (advanceEnv_frame s)

theorem idleCycle_sameImage (s : State) : s.SameImage (idleCycle s) := sameImage_of_lessTick (idleCycle_frame s)

theorem tick_sameImage (n : Nat) (s : State) : s.SameImage (tick n s) := sameImage_of_lessTick (tick_frame s n)

theorem exec_sameImage {i : Instr} (h : exec i s = .next t) : s.SameImage t :=
  ⟨lessExec_prog (exec_frame h), lessExec_cfg (exec_frame h)⟩

theorem takeReset_sameImage (k : ResetKind) (s : State) : s.SameImage (takeReset k s) := by
  cases k
  case wdtRun => exact ⟨rfl, rfl⟩
  all_goals exact (advanceEnv_sameImage _).after ⟨rfl, rfl⟩

/-- No step changes the program image or the configuration. -/
theorem step_sameImage (h : step s = .next t) : s.SameImage t := by
  rcases step_cases h with ⟨k, _, rfl⟩ | ⟨_, _, rfl⟩ | ⟨_, _, hcase⟩
  · exact takeReset_sameImage k s
  · exact advanceEnv_sameImage s
  · rcases hcase with ⟨_, rfl⟩ | ⟨_, _, _, rfl⟩ | ⟨_, _, _, rfl⟩ | ⟨_, _, _, rfl⟩ | ⟨_, _, ph, i, u, _, he, rfl⟩
    · exact (idleCycle_sameImage _).after ⟨rfl, rfl⟩
    · exact ⟨rfl, rfl⟩
    · exact (idleCycle_sameImage _).after ⟨rfl, rfl⟩
    · exact (tick_sameImage 2 _).after ⟨rfl, rfl⟩
    · exact (tick_sameImage u.cycles u).after ((exec_sameImage he).after ⟨rfl, rfl⟩)

theorem State.SameImage.progRead (h : s.SameImage t) (a : PAddr) : t.progRead a = s.progRead a := by
  obtain ⟨hprog, hcfg⟩ := h
  unfold State.progRead State.progIndex
  rw [hprog, hcfg]

/-- Settles O39. -/
theorem programMemoryNeverChanges : Obligations.ProgramMemoryNeverChanges := by
  refine ⟨⟨rfl, rfl, rfl, rfl⟩, fun s => ⟨rfl, fun _ => rfl, fun _ _ => progRead_eq_of_mod⟩,
    fun _ w a h => withFetchWord_progRead h w a, fun s t h => ?_⟩
  obtain ⟨hprog, hcfg⟩ := step_sameImage h
  exact ⟨hprog, hcfg, (step_sameImage h).progRead⟩

end Sys2Proof.Machine
end

section
/-! The stack as a circular buffer of eight cells (R27, R28). -/

namespace Sys2Proof.Machine

variable (s : State)

/-- A push writes the cell the pointer names and no other. -/
theorem push_stkAt (v : PAddr) (p : BitVec 3) : (s.push v).stkAt p = if p = s.sp then v else s.stkAt p := by
  unfold State.stkAt
  simp only [State.push_stk, Vector.getElem_set]
  by_cases h : p = s.sp
  · rw [if_pos h, if_pos (by rw [h])]
  · rw [if_neg h, if_neg (fun e => h (BitVec.eq_of_toNat_eq e.symm))]

theorem push_top (v : PAddr) : (s.push v).top = v := by
  unfold State.top
  rw [push_stkAt, if_pos (by simp)]

/-- Fewer than eight further pushes do not come round to the cell below the pointer. -/
theorem foldl_push_stkAt_below (vs : List PAddr) {n : Nat} (h : vs.length + n < 8) :
    (vs.foldl State.push s).stkAt (s.sp - BitVec.ofNat 3 (n + 1)) = s.stkAt (s.sp - BitVec.ofNat 3 (n + 1)) := by
  induction vs generalizing s n with
  | nil => rfl
  | cons v vs ih =>
    have hlen : vs.length + (n + 1) < 8 := by simp at h; omega
    have hsp : s.sp - BitVec.ofNat 3 (n + 1) = (s.push v).sp - BitVec.ofNat 3 (n + 1 + 1) := by
      rw [State.push_sp]; bv_omega
    have hne : s.sp - BitVec.ofNat 3 (n + 1) ≠ s.sp := by
      simp at h; bv_omega
    rw [List.foldl_cons, hsp, ih _ hlen, ← hsp, push_stkAt, if_neg hne]

/-- The last eight of a list of pushes are held, each where it was pushed. -/
theorem foldl_push_stkAt (vs : List PAddr) {k : Nat} (h : vs.length ≤ k + 8) (hk : k < vs.length) :
    (vs.foldl State.push s).stkAt (s.sp + BitVec.ofNat 3 k) = vs.getD k 0x0000#13 := by
  induction vs generalizing s k with
  | nil => simp at hk
  | cons v vs ih =>
    rw [List.length_cons] at h hk
    rw [List.foldl_cons]
    cases k with
    | zero =>
      have hsp : s.sp + BitVec.ofNat 3 0 = (s.push v).sp - BitVec.ofNat 3 (0 + 1) := by rw [State.push_sp]; bv_omega
      rw [hsp, foldl_push_stkAt_below _ _ (by omega), ← hsp, push_stkAt, if_pos (by simp)]
      rfl
    | succ k =>
      have hsp : s.sp + BitVec.ofNat 3 (k + 1) = (s.push v).sp + BitVec.ofNat 3 k := by rw [State.push_sp]; bv_omega
      rw [hsp, ih _ (by omega) (by omega)]
      rfl

/-- A pop moves the pointer and erases nothing. -/
theorem times_drop (n : Nat) : times State.drop n s = { s with sp := s.sp - BitVec.ofNat 3 n } := by
  induction n generalizing s with
  | zero => simp [times]
  | succ n ih =>
    have hsp : s.drop.sp - BitVec.ofNat 3 n = s.sp - BitVec.ofNat 3 (n + 1) := by rw [State.drop_sp]; bv_omega
    rw [times, ih, hsp]; rfl

/-- Eight pops come round to where they began. -/
theorem times_drop_eight : times State.drop 8 s = s := by
  rw [times_drop, show s.sp - BitVec.ofNat 3 8 = s.sp by simp]

/-- Settles O41. -/
theorem stackIsCircular : Obligations.StackIsCircular := by
  refine ⟨fun s v => ⟨push_top s v, ?_, fun p hp => ?_, rfl⟩, fun s vs k => foldl_push_stkAt s vs, fun s => ⟨?_, rfl⟩⟩
  · rw [State.drop_sp, State.push_sp]; simp
  · rw [push_stkAt, if_neg hp]
  · rw [times_drop_eight]

end Sys2Proof.Machine
end

section
/-! The data address map (R99), what an operand names (R82 to R85), and the tables of reads and writes (R86, R87). -/

namespace Sys2Proof.Machine

variable (s : State)

/-! ### The data address map -/

/-- An address of bank 0 is its own low seven bits. -/
theorem decodeAddr_bank0 (dev : Device) {n : Nat} (h : n ≤ 0x7F) :
    decodeAddr dev (BitVec.ofNat 8 n) = decodeLoc dev false n := by
  have hbank : (BitVec.ofNat 8 n).getLsbD 7 = false := by
    rw [BitVec.getLsbD_ofNat, Nat.testBit_lt_two_pow (by omega)]; rfl
  have hlow : ((BitVec.ofNat 8 n).extractLsb' 0 7).toNat = n := by
    rw [BitVec.extractLsb'_toNat, BitVec.toNat_ofNat, Nat.shiftRight_zero]; omega
  unfold decodeAddr
  rw [hbank, hlow]

/-- An address of bank 1 is 80h above its low seven bits (R81). -/
theorem decodeAddr_bank1 (dev : Device) {n : Nat} (h : n ≤ 0x7F) :
    decodeAddr dev (BitVec.ofNat 8 (0x80 + n)) = decodeLoc dev true n := by
  have hbank : (BitVec.ofNat 8 (0x80 + n)).getLsbD 7 = true := by
    rw [BitVec.getLsbD_ofNat, Nat.testBit_eq_decide_div_mod_eq]; simp; omega
  have hlow : ((BitVec.ofNat 8 (0x80 + n)).extractLsb' 0 7).toNat = n := by
    rw [BitVec.extractLsb'_toNat, BitVec.toNat_ofNat, Nat.shiftRight_zero]; omega
  unfold decodeAddr
  rw [hbank, hlow]

/-- From 0Ch on the two banks are the same registers (R22). -/
theorem decodeAddr_high (dev : Device) {n : Nat} (hlo : 0x0C ≤ n) (hhi : n ≤ 0x7F) :
    decodeAddr dev (BitVec.ofNat 8 n) = decodeGpr dev n
      ∧ decodeAddr dev (BitVec.ofNat 8 (0x80 + n)) = decodeGpr dev n :=
  ⟨(decodeAddr_bank0 dev hhi).trans (decodeLoc_high hlo), (decodeAddr_bank1 dev hhi).trans (decodeLoc_high hlo)⟩

theorem gprTop_lt (dev : Device) : dev.gprTop < 0x7F := by cases dev <;> decide

/-- Settles O9. -/
theorem dataAddressMap : Obligations.DataAddressMap := by
  refine ⟨⟨rfl, rfl, rfl, rfl⟩, fun dev => ⟨⟨rfl, rfl⟩, ⟨rfl, rfl⟩, ⟨rfl, rfl⟩, ⟨rfl, rfl⟩, ⟨rfl, rfl⟩, ⟨rfl, rfl⟩,
    ⟨rfl, rfl⟩, ⟨rfl, rfl⟩, ⟨rfl, rfl⟩, ⟨rfl, rfl⟩, ⟨rfl, rfl⟩, ⟨rfl, rfl⟩, fun n hlo hhi => ?_, fun n hlo hhi => ?_⟩⟩
  · have hg : decodeGpr dev n = .gpr n := if_pos ⟨hlo, hhi⟩
    have htop := gprTop_lt dev
    rw [← hg]
    exact decodeAddr_high dev hlo (by omega)
  · have hg : decodeGpr dev n = .unimplemented := if_neg (by omega)
    have hbot := gprBottom_le_gprTop dev
    rw [← hg]
    exact decodeAddr_high dev (by unfold gprBottom at hbot; omega) hhi

/-! ### What an operand names -/

/-- `EA(f)` as a number (R82): RP0 is worth 80h. -/
theorem ea_eq (f : FileAddr) : s.ea f = BitVec.ofNat 8 (f.toNat + if s.status.getLsbD 5 then 0x80 else 0) := by
  have hf := f.isLt
  apply BitVec.eq_of_toNat_eq
  unfold State.ea State.rp0
  show (@BitVec.toNat (1 + 7) (_ ++ _)) = _
  rw [BitVec.toNat_append, ← Nat.shiftLeft_add_eq_or_of_lt hf, Nat.shiftLeft_eq, BitVec.toNat_ofBool, BitVec.toNat_ofNat]
  cases s.status.getLsbD 5
  · simp; omega
  · simp; omega

theorem resolve_direct {f : FileAddr} (h : f ≠ 0x00#7) : resolve f s = decodeAddr s.cfg.device (s.ea f) := if_neg h

theorem resolve_indf {f : FileAddr} (h : f = 0x00#7) : resolve f s = decodeAddr s.cfg.device s.fsr := if_pos h

/-- INDF reached through itself is nothing, in either bank (R84). -/
theorem decodeAddr_null (dev : Device) {a : Byte} (h : a.toNat % 0x80 = 0) : decodeAddr dev a = .null := by
  have hlow : (a.extractLsb' 0 7).toNat = 0 := by rw [BitVec.extractLsb'_toNat, Nat.shiftRight_zero]; exact h
  unfold decodeAddr
  rw [hlow]
  rfl

/-- Settles O10. -/
theorem operandResolution : Obligations.OperandResolution := by
  refine fun f s => ⟨fun hf => ?_, fun hf h0 => ?_, fun hf _ => resolve_indf s hf, fun hf v => ?_, fun v hv => ?_⟩
  · rw [resolve_direct s hf, ea_eq]
  · rw [resolve_indf s hf, decodeAddr_null _ h0]
  · rw [resolve_indf s hf, resolve_indf _ hf]
  · by_cases hf : f = 0x00#7
    · rw [resolve_indf s hf, resolve_indf _ hf]
    · rw [resolve_direct s hf, resolve_direct _ hf, ea_eq, ea_eq, hv]

/-! ### Reads -/

/-- The unimplemented bits 7:5 of a five-bit register read 0. -/
theorem zeros_append_five (b : BitVec 5) : (0b000#3 ++ b : Byte) = b.setWidth 8 :=
  (BitVec.setWidth_eq_append (by decide)).symm

/-- PORTA reads its five pins, and 0 above them (R281). -/
theorem portA_getLsbD (n : Nat) : s.portA.getLsbD n = (decide (n < 5) && s.pinA n) := by
  unfold State.portA
  show (@BitVec.getLsbD (3 + 1 + 1 + 1 + 1 + 1) (_ ++ _) n) = _
  simp only [BitVec.getLsbD_append, BitVec.getLsbD_ofBool]
  rcases n with _ | _ | _ | _ | _ | n
  all_goals simp

/-- What RBOLD latches (R285): RB7 to RB4. -/
theorem portBHigh_getLsbD (n : Nat) : s.portBHigh.getLsbD n = (decide (n < 4) && s.pinB (n + 4)) := by
  unfold State.portBHigh
  show (@BitVec.getLsbD (1 + 1 + 1 + 1) (_ ++ _) n) = _
  simp only [BitVec.getLsbD_append, BitVec.getLsbD_ofBool]
  rcases n with _ | _ | _ | _ | n
  all_goals simp

/-- PORTB reads its eight pins (R285). -/
theorem portB_getLsbD (n : Nat) : s.portB.getLsbD n = (decide (n < 8) && s.pinB n) := by
  unfold State.portB
  show (@BitVec.getLsbD (4 + 1 + 1 + 1 + 1) (_ ++ _) n) = _
  simp only [BitVec.getLsbD_append, BitVec.getLsbD_ofBool, portBHigh_getLsbD]
  rcases n with _ | _ | _ | _ | n
  case succ.succ.succ.succ => simp only [show n + 1 + 1 + 1 + 1 < 8 ↔ n < 4 by omega]; simp
  all_goals simp

theorem memRead_pclath : memRead .pclath s = (s.pclath.setWidth 8, s) := congrArg (·, s) (zeros_append_five s.pclath)

theorem memRead_trisa : memRead .trisa s = (s.trisa.setWidth 8, s) := congrArg (·, s) (zeros_append_five s.trisa)

theorem memRead_eecon1 : memRead .eecon1 s = (s.eecon1.setWidth 8, s) := congrArg (·, s) (zeros_append_five s.eecon1)

/-- Settles O12. -/
theorem memReadTable : Obligations.MemReadTable := fun s =>
  ⟨rfl, rfl, rfl, rfl, rfl, rfl, ⟨memRead_pcl_toNat s, rfl⟩, rfl, rfl, rfl, rfl, rfl, memRead_pclath s, memRead_trisa s,
    memRead_eecon1 s, fun _ => rfl, portA_getLsbD s, rfl, portB_getLsbD s, portBHigh_getLsbD s, rfl⟩

/-! ### Writes -/

/-- A five-bit register takes the low five bits of the byte. -/
theorem extract_five (v : Byte) : v.extractLsb' 0 5 = v.setWidth 5 := BitVec.eq_of_toNat_eq rfl

/-- Settles O13. -/
theorem memWriteTable : Obligations.MemWriteTable := by
  intro v b s
  rw [← extract_five]
  exact ⟨rfl, rfl, rfl, rfl, rfl, rfl, rfl, rfl, rfl, rfl, rfl, rfl, rfl⟩

end Sys2Proof.Machine
end

section
/-! The instructions with a file destination: what all eighteen leave alone, and DECFSZ and INCFSZ. -/

namespace Sys2Proof.Machine

variable {s t : State} {i : Instr} {f : FileAddr} {d : Dest}

/-! ### What a write to a location leaves alone -/

/-- `t` is `s` but for the file registers whose location `P` admits: each clause is one register, with what R87 gives it. -/
structure State.KeepsBut (P : Loc → Prop) (s t : State) : Prop where
  gpr : ∀ n, ¬P (.gpr n) → t.gpr n = s.gpr n
  fsr : ¬P .fsr → t.fsr = s.fsr
  pclath : ¬P .pclath → t.pclath = s.pclath
  intcon : ¬P .intcon → t.intcon = s.intcon
  optionReg : ¬P .optionReg → t.optionReg = s.optionReg
  porta : ¬P .porta → t.lata = s.lata
  portb : ¬P .portb → t.latb = s.latb
  trisa : ¬P .trisa → t.trisa = s.trisa
  trisb : ¬P .trisb → t.trisb = s.trisb
  tmr0 : ¬P .tmr0 → t.tmr0 = s.tmr0 ∧ t.presc = s.presc ∧ t.t0Sync = s.t0Sync ∧ t.t0Skip = s.t0Skip
  eeadr : ¬P .eeadr → t.eeadr = s.eeadr
  eedata : ¬P .eedata → ¬P .eecon1 → t.eedata = s.eedata
  eecon1 : ¬P .eecon1 → t.eecon1 = s.eecon1 ∧ t.eeBusy = s.eeBusy
  eeSeq : ¬P .eecon1 → ¬P .eecon2 → t.eeSeq = s.eeSeq
  status : ¬P .status → t.status = s.status

theorem State.KeepsBut.refl (P : Loc → Prop) (s : State) : s.KeepsBut P s where
  gpr := fun _ _ => rfl
  fsr := fun _ => rfl
  pclath := fun _ => rfl
  intcon := fun _ => rfl
  optionReg := fun _ => rfl
  porta := fun _ => rfl
  portb := fun _ => rfl
  trisa := fun _ => rfl
  trisb := fun _ => rfl
  tmr0 := fun _ => ⟨rfl, rfl, rfl, rfl⟩
  eeadr := fun _ => rfl
  eedata := fun _ _ => rfl
  eecon1 := fun _ => ⟨rfl, rfl⟩
  eeSeq := fun _ _ => rfl
  status := fun _ => rfl

/-- Two states that agree but for the data EEPROM's registers differ in those eight fields at most. -/
theorem eq_of_lessEe (e : t.lessEe = s.lessEe) :
    t = { s with eecon1 := t.eecon1, eedata := t.eedata, draws := t.draws, eeSeq := t.eeSeq, eeBusy := t.eeBusy,
                 eeWAddr := t.eeWAddr, eeWData := t.eeWData, eeTimer := t.eeTimer } := by
  have h := congrArg (fun x : State => { x with
    eecon1 := t.eecon1, eedata := t.eedata, draws := t.draws, eeSeq := t.eeSeq, eeBusy := t.eeBusy,
    eeWAddr := t.eeWAddr, eeWData := t.eeWData, eeTimer := t.eeTimer }) e
  exact h

/-- A write of EECON1 changes the data EEPROM's registers at most, so of the clauses only those of EECON1 fall (R312). -/
theorem writeEecon1_keepsBut {P : Loc → Prop} (hP : P .eecon1) (v : Byte) (s : State) :
    s.KeepsBut P (writeEecon1 v s) := by
  have e := eq_of_lessEe (writeEecon1_frame s v)
  generalize writeEecon1 v s = u at e
  rw [e]
  exact { State.KeepsBut.refl P s with
    eedata := fun _ h => absurd hP h, eecon1 := fun h => absurd hP h, eeSeq := fun h => absurd hP h }

/-- A write changes the registers of its own location alone (R87). -/
theorem memWrite_keepsBut {P : Loc → Prop} (hram : Memory.wf ramFill s.ram) (v : Byte) (nf : Bool) :
    ∀ loc, P loc → s.KeepsBut P (memWrite loc v nf s)
  | .null, _ | .unimplemented, _ | .pcl, _ => { State.KeepsBut.refl P s with }
  | .gpr a, hP => { State.KeepsBut.refl P s with
      gpr := fun n h => (setGpr_gpr s hram a v n).trans (if_neg fun (e : n = a) => h (e ▸ hP)) }
  | .fsr, hP => { State.KeepsBut.refl P s with fsr := fun h => absurd hP h }
  | .pclath, hP => { State.KeepsBut.refl P s with pclath := fun h => absurd hP h }
  | .intcon, hP => { State.KeepsBut.refl P s with intcon := fun h => absurd hP h }
  | .optionReg, hP => { State.KeepsBut.refl P s with optionReg := fun h => absurd hP h }
  | .porta, hP => { State.KeepsBut.refl P s with porta := fun h => absurd hP h }
  | .portb, hP => { State.KeepsBut.refl P s with portb := fun h => absurd hP h }
  | .trisa, hP => { State.KeepsBut.refl P s with trisa := fun h => absurd hP h }
  | .trisb, hP => { State.KeepsBut.refl P s with trisb := fun h => absurd hP h }
  | .tmr0, hP => { State.KeepsBut.refl P s with tmr0 := fun h => absurd hP h }
  | .eeadr, hP => { State.KeepsBut.refl P s with eeadr := fun h => absurd hP h }
  | .eedata, hP => { State.KeepsBut.refl P s with eedata := fun h => absurd hP h }
  | .eecon2, hP => { State.KeepsBut.refl P s with eeSeq := fun _ h => absurd hP h }
  | .status, hP => { State.KeepsBut.refl P s with status := fun h => absurd hP h }
  | .eecon1, hP => writeEecon1_keepsBut hP v s

/-! ### What an instruction with a file destination leaves alone -/

/-- The read and the store of an instruction `f,d` (R90) change no file register but the destination. -/
theorem stored_keepsBut (hram : Memory.wf ramFill s.ram) (f : FileAddr) (d : Dest) (r : Byte) (nf : Bool) :
    s.KeepsBut (fun loc => d = .f ∧ resolve f s = loc) (s.stored f d r nf) := by
  cases d with
  | w =>
    have hread := State.KeepsBut.refl (fun loc => Dest.w = .f ∧ resolve f s = loc) s
    rw [show s.stored f .w r nf = { s.afterRead f with w := r } from rfl, s.afterRead_frame f]
    exact { hread with }
  | f =>
    have hram' : Memory.wf ramFill (s.afterRead f).ram := by rw [s.afterRead_frame f]; exact hram
    have hwrite : (s.afterRead f).KeepsBut (fun loc => Dest.f = .f ∧ resolve f s = loc) (s.stored f .f r nf) :=
      memWrite_keepsBut hram' r nf (resolve f s) ⟨rfl, rfl⟩
    rw [s.afterRead_frame f] at hwrite
    exact { hwrite with }

theorem stored_w (hd : d ≠ .w) (r : Byte) (nf : Bool) : (s.stored f d r nf).w = s.w := by
  cases d with
  | w => exact absurd rfl hd
  | f =>
    refine (lessFile_w (memWrite_frame (s.afterRead f) (resolve f s) r nf)).trans ?_
    rw [s.afterRead_frame f]

/-- Only the read latches RBOLD, and only that of PORTB (R285). -/
theorem stored_rbold (h : resolve f s ≠ .portb) (r : Byte) (nf : Bool) : (s.stored f d r nf).rbold = s.rbold := by
  have hread : (s.afterRead f).rbold = s.rbold := memRead_rbold s h
  cases d with
  | w => exact hread
  | f => exact (lessFile_rbold (memWrite_frame (s.afterRead f) (resolve f s) r nf)).trans hread

/-- The eighteen instructions with a file destination are of the shape `f,d` or skip on zero. -/
theorem exec_of_fileDest (h : i.fileDest = some (f, d)) :
    (∃ op, exec i s = fileOp f d op s) ∨ ∃ op, exec i s = skipOp f d op s := by
  cases i <;> cases h
  case decfsz => exact Or.inr ⟨decByte, rfl⟩
  case incfsz => exact Or.inr ⟨incByte, rfl⟩
  all_goals
    unfold exec
    exact Or.inl ⟨_, rfl⟩

/-- What they do: the result is stored, and of the state after that only STATUS[2:0], the PC and the cycles still change. -/
theorem exec_fileDest_next (hd : i.fileDest = some (f, d)) (h : exec i s = .next t) :
    ∃ r nf st pc cy, t = { s.stored f d r nf with status := st, pc := pc, cycles := cy }
      ∧ ∀ n, 3 ≤ n → st.getLsbD n = (s.stored f d r nf).status.getLsbD n := by
  rcases exec_of_fileDest hd with ⟨op, e⟩ | ⟨op, e⟩
  · rw [e, fileOp_eq] at h
    cases h
    exact ⟨_, _, _, _, _, rfl, (flagsSet_setFlags _ _).rest⟩
  · rw [e, skipOp_eq] at h
    split at h <;> cases h
    unfold skipIf
    split
    · exact ⟨_, _, _, _, _, rfl, fun _ _ => rfl⟩
    · exact ⟨_, _, _, _, _, rfl, fun _ _ => rfl⟩

/-- Settles O15. -/
theorem fileInstructionFrame : Obligations.FileInstructionFrame := by
  intro i f d s t hd h hram
  obtain ⟨r, nf, st, pc, cy, rfl, hst⟩ := exec_fileDest_next hd h
  have k := stored_keepsBut hram f d r nf
  have frame := stored_lessFileOp f d r nf s
  have hstk := congrArg State.stk frame
  have hsp := congrArg State.sp frame
  have heeprom := congrArg State.eeprom frame
  have hprog := congrArg State.prog frame
  have hcfg := congrArg State.cfg frame
  have hsleeping := congrArg State.sleeping frame
  have hwdt := congrArg State.wdtCnt frame
  have hpins := congrArg State.pins frame
  have hqueue := congrArg State.pinQueue frame
  exact ⟨k.gpr, fun hw => stored_w hw r nf, k.fsr, k.pclath, k.intcon, k.optionReg, k.porta, k.portb, k.trisa, k.trisb,
    k.tmr0, k.eeadr, fun hn => k.eedata (fun e => hn ⟨e.1, .inl e.2⟩) (fun e => hn ⟨e.1, .inr e.2⟩), k.eecon1,
    fun hn => k.eeSeq (fun e => hn ⟨e.1, .inl e.2⟩) (fun e => hn ⟨e.1, .inr e.2⟩), fun hb => stored_rbold hb r nf,
    fun hs n hn => (hst n hn).trans (congrArg (·.getLsbD n) (k.status hs)), hstk, hsp, heeprom, hprog, hcfg, hsleeping,
    hwdt, hpins, hqueue⟩

/-! ### DECFSZ and INCFSZ -/

theorem decode_decfsz (f : FileAddr) (d : Dest) : decode (formatB 0b001011#6 d f) = .ok (.decfsz f d) := by
  rw [decode_formatB _ _ _ rfl, decodeByteOriented, opcode_formatB, fieldF_formatB, fieldD_formatB]
  rfl

theorem decode_incfsz (f : FileAddr) (d : Dest) : decode (formatB 0b001111#6 d f) = .ok (.incfsz f d) := by
  rw [decode_formatB _ _ _ rfl, decodeByteOriented, opcode_formatB, fieldF_formatB, fieldD_formatB]
  rfl

theorem skipOp_pcl (h : d = .f ∧ resolve f s = .pcl) (op : Byte → Byte) : skipOp f d op s = .refused .skipOntoPcl := by
  rw [skipOp_eq, if_pos h]

/-- Off PCL the skip instruction completes: the result is stored, and the next word skipped exactly if it is 0 (R148). -/
theorem skipOp_next (h : ¬(d = .f ∧ resolve f s = .pcl)) (op : Byte → Byte) :
    ∃ t, skipOp f d op s = .next t
      ∧ (op (s.operand f) ≠ 0x00#8 → t = s.stored f d (op (s.operand f)) true)
      ∧ (op (s.operand f) = 0x00#8 → t = { s.stored f d 0x00#8 true with pc := s.pc + 2, cycles := 2 }) := by
  refine ⟨_, by rw [skipOp_eq, if_neg h], fun hne => ?_, fun h0 => ?_⟩
  · exact if_neg (by simpa using hne)
  · rw [h0]; rfl

/-- Settles O24. -/
theorem skipOnZeroResults : Obligations.SkipOnZeroResults := by
  refine fun f d s => ⟨decode_decfsz f d, decode_incfsz f d, fun hp => ⟨?_, ?_⟩, fun hp => ⟨?_, ?_⟩⟩
  · exact (exec_decfsz s f d).trans (skipOp_pcl hp decByte)
  · exact (exec_incfsz s f d).trans (skipOp_pcl hp incByte)
  · rw [exec_decfsz, ← decByte_eq, Ne, ← decByte_zero]
    exact skipOp_next hp decByte
  · rw [exec_incfsz, ← incByte_eq, Ne, ← incByte_zero]
    exact skipOp_next hp incByte

end Sys2Proof.Machine
end

section
/-! The data EEPROM in every step: which cell can change, and when (R310, R317, R342, R346). -/

namespace Sys2Proof.Machine

variable {s t u : State} {i : Instr}

/-- The cell an address selects is its low six bits (R313). -/
theorem eeCell_eq (a : Byte) : eeCell a = a.toNat % 64 := by
  unfold eeCell
  rw [BitVec.extractLsb'_toNat, Nat.shiftRight_zero]

/-! ### What time does to the data EEPROM -/

/-- EEIF, bit 4 of EECON1 (R42). -/
def State.eeif (s : State) : Bool := s.eecon1.getLsbD 4

/-- From `s` to `t` nothing happened to the data EEPROM and its write in progress. -/
structure State.EeSame (s t : State) : Prop where
  cells : t.eeprom = s.eeprom
  busy : t.eeBusy = s.eeBusy
  addr : t.eeWAddr = s.eeWAddr
  flag : t.eeif = s.eeif

/-- From `s` to `t` the write in progress ended: its cell took a byte, EEIF is set (R317). -/
structure State.EeEnded (s t : State) : Prop where
  cells : ∃ v, t.eeprom = Memory.write eepromFill s.eeprom (eeCell s.eeWAddr) v
  wasBusy : s.eeBusy = true
  idle : t.eeBusy = false
  addr : t.eeWAddr = s.eeWAddr
  flag : t.eeif = true

/-- What time can do to the data EEPROM (R317): nothing, or end the write in progress. -/
def State.EeTime (s t : State) : Prop := s.EeSame t ∨ s.EeEnded t

/-- A write ends once: after it none is in progress. -/
theorem State.EeTime.trans (h : s.EeTime t) (h' : t.EeTime u) : s.EeTime u := by
  rcases h with a | a <;> rcases h' with b | b
  · exact Or.inl ⟨b.cells.trans a.cells, b.busy.trans a.busy, b.addr.trans a.addr, b.flag.trans a.flag⟩
  · have hcells := b.cells
    rw [a.cells, a.addr] at hcells
    exact Or.inr ⟨hcells, a.busy.symm.trans b.wasBusy, b.idle, b.addr.trans a.addr, b.flag⟩
  · have hcells := a.cells
    rw [← b.cells] at hcells
    exact Or.inr ⟨hcells, a.wasBusy, b.busy.trans a.idle, b.addr.trans a.addr, b.flag.trans a.flag⟩
  · exact absurd (a.idle.symm.trans b.wasBusy) (by simp)

theorem eeComplete_eeif (s : State) : (eeComplete s).eeif = true := by
  show ((s.eecon1 &&& 0b11101#5) ||| 0b10000#5).getLsbD 4 = true
  rw [BitVec.getLsbD_or]
  exact Bool.or_true _

theorem eeTimerCycle_eeTime (s : State) : s.EeTime (eeTimerCycle s) := by
  rcases eeTimerCycle_cases s with ⟨_, e⟩ | ⟨_, _, e⟩ | ⟨hb, _, e⟩ <;> rw [e]
  · exact Or.inl ⟨rfl, rfl, rfl, rfl⟩
  · exact Or.inl ⟨rfl, rfl, rfl, rfl⟩
  · exact Or.inr ⟨⟨s.eeWData, rfl⟩, hb, rfl, rfl, eeComplete_eeif _⟩

/-- Of the fields `EeTime` speaks of, a unit of time changes what the write timer changes. -/
theorem eeTime_of_eeTimer (hcells : t.eeprom = (eeTimerCycle s).eeprom) (hbusy : t.eeBusy = (eeTimerCycle s).eeBusy)
    (hcon : t.eecon1 = (eeTimerCycle s).eecon1) (haddr : t.eeWAddr = s.eeWAddr) : s.EeTime t := by
  have hflag : t.eeif = (eeTimerCycle s).eeif := congrArg (·.getLsbD 4) hcon
  rcases eeTimerCycle_eeTime s with a | a
  · exact Or.inl ⟨hcells.trans a.cells, hbusy.trans a.busy, haddr, hflag.trans a.flag⟩
  · have hw := a.cells
    rw [← hcells] at hw
    exact Or.inr ⟨hw, a.wasBusy, hbusy.trans a.idle, haddr, hflag.trans a.flag⟩

theorem tickCycle_eeTime (s : State) : s.EeTime (tickCycle s) :=
  eeTime_of_eeTimer (tickCycle_eeprom s) (tickCycle_eeBusy s) (tickCycle_eecon1 s) (lessTick_eeWAddr (tickCycle_frame s))

theorem idleCycle_eeTime (s : State) : s.EeTime (idleCycle s) :=
  eeTime_of_eeTimer (idleCycle_eeprom s) (idleCycle_eeBusy s) (idleCycle_eecon1 s) (lessTick_eeWAddr (idleCycle_frame s))

theorem tick_eeTime (n : Nat) (s : State) : s.EeTime (tick n s) := by
  induction n generalizing s with
  | zero => exact Or.inl ⟨rfl, rfl, rfl, rfl⟩
  | succ n ih => exact (tickCycle_eeTime s).trans (ih _)

theorem advanceEnv_eeSame (s : State) : s.EeSame (advanceEnv s) := by
  rw [advanceEnv_eq]; exact ⟨rfl, rfl, rfl, rfl⟩

/-! ### What an instruction does to the data EEPROM -/

theorem eeReadOp_eeBusy (s : State) : (eeReadOp s).eeBusy = s.eeBusy := by unfold eeReadOp; split <;> rfl

theorem eeReadOp_eeSeq (s : State) : (eeReadOp s).eeSeq = s.eeSeq := by unfold eeReadOp; split <;> rfl

theorem eeStartWrite_eeBusy (h : s.eeSeq ≠ .gotAA) (old : Bool) : (eeStartWrite old s).eeBusy = s.eeBusy := by
  unfold eeStartWrite
  rw [if_neg (by simp [h])]

/-- Without 55h and AAh before it, a write of EECON1 starts no write, whether it reads a cell first or not (R314, R315). -/
theorem writeEecon1_eeBusy (h : s.eeSeq ≠ .gotAA) (v : Byte) : (writeEecon1 v s).eeBusy = s.eeBusy := by
  simp only [writeEecon1]
  split <;> split
  · exact (eeStartWrite_eeBusy (by rw [eeReadOp_eeSeq]; exact h) _).trans (eeReadOp_eeBusy _)
  · exact eeStartWrite_eeBusy (by exact h) _
  · exact eeReadOp_eeBusy _
  · rfl

theorem memWrite_eeBusy (h : s.eeSeq ≠ .gotAA) (loc : Loc) (v : Byte) (nf : Bool) :
    (memWrite loc v nf s).eeBusy = s.eeBusy := by
  by_cases hl : loc = .eecon1
  · subst hl; exact writeEecon1_eeBusy h v
  · obtain ⟨_, hbusy, _⟩ := memWrite_ne_eecon1 s hl v nf
    exact hbusy

theorem stored_eeBusy (h : s.eeSeq ≠ .gotAA) (f : FileAddr) (d : Dest) (r : Byte) (nf : Bool) :
    (s.stored f d r nf).eeBusy = s.eeBusy := by
  have hread : (s.afterRead f).eeBusy = s.eeBusy ∧ (s.afterRead f).eeSeq = s.eeSeq := by
    rw [s.afterRead_frame f]; exact ⟨rfl, rfl⟩
  obtain ⟨hb, hq⟩ := hread
  cases d with
  | w => exact hb
  | f => exact (memWrite_eeBusy (hq ▸ h) _ r nf).trans hb

theorem skipIf_eeBusy (b : Bool) (x : PAddr) (s : State) : (skipIf b x s).eeBusy = s.eeBusy := by
  unfold skipIf; split <;> rfl

/-- An instruction ends no write of the data EEPROM, and without 55h and AAh before it starts none (R314, R315). -/
theorem exec_eeBusy (he : exec i s = .next t) (h : s.eeSeq ≠ .gotAA) : t.eeBusy = s.eeBusy := by
  rcases exec_shape i s with ⟨f, d, op, _, e⟩ | ⟨f, d, op, _, e⟩ | ⟨f, c, e⟩ | ⟨r, e⟩ | rest
  · rw [e, fileOp_eq] at he
    cases he
    exact stored_eeBusy h f d _ _
  · rw [e, skipOp_eq] at he
    split at he <;> cases he
    exact (skipIf_eeBusy _ _ _).trans (stored_eeBusy h f d _ _)
  · rw [e, bitTest_eq] at he
    cases he
    rw [skipIf_eeBusy, s.afterRead_frame f]
  · rw [e] at he
    cases he
    rfl
  · rcases rest with rfl | ⟨k, rfl⟩ | rfl | ⟨k, rfl⟩ | rfl | ⟨k, rfl⟩ | rfl | rfl | rfl | rfl | rfl
    · cases he; rfl
    · cases he; rfl
    · cases he; rfl
    · cases he; rfl
    · cases he; rfl
    · cases he; rfl
    · cases he; rfl
    · rcases execSleep_next he with ⟨_, rfl⟩ | ⟨_, rfl⟩ <;> rfl
    · cases he; rfl
    · rw [(execTrisA_next he).2]; rfl
    · rw [(execTrisB_next he).2]; rfl

/-! ### What a step does to the data EEPROM -/

/-- From `s` to `t` a reset took effect: a write in progress was cut short and its cell may hold any byte (R342, R346). -/
structure State.EeReset (s t : State) : Prop where
  cells : s.eeBusy = true → ∃ v, t.eeprom = Memory.write eepromFill s.eeprom (eeCell s.eeWAddr) v
  kept : s.eeBusy = false → t.eeprom = s.eeprom
  idle : t.eeBusy = false
  addr : t.eeWAddr = s.eeWAddr

theorem warmReset_eeReset (k : ResetKind) (s : State) : s.EeReset (warmReset k s) where
  cells := fun h => ⟨Config.unknown .eeCell 8 s.draws, if_pos h⟩
  kept := fun h => if_neg (by simp [h])
  idle := rfl
  addr := rfl

theorem deviceReset_eeReset (k : ResetKind) (s : State) : s.EeReset (deviceReset k s) := by
  cases k
  case por => exact { warmReset_eeReset .por s with }
  all_goals exact warmReset_eeReset _ s

theorem State.EeReset.trans_eeSame (h : s.EeReset t) (h' : t.EeSame u) : s.EeReset u where
  cells := by rw [h'.cells]; exact h.cells
  kept := fun hb => h'.cells.trans (h.kept hb)
  idle := h'.busy.trans h.idle
  addr := h'.addr.trans h.addr

theorem takeReset_eeReset (k : ResetKind) (s : State) : s.EeReset (takeReset k s) := by
  cases k
  case wdtRun => exact deviceReset_eeReset .wdtRun s
  all_goals exact (deviceReset_eeReset _ s).trans_eeSame (advanceEnv_eeSame _)

/-- What a step does to the data EEPROM: a reset takes effect; or an instruction, which changes no cell and starts a write
only after 55h and AAh, and then time passes. -/
theorem step_eeprom_cases (h : step s = .next t) :
    (s.resetRequest ≠ none ∧ s.EeReset t)
    ∨ (s.resetRequest = none
      ∧ ∃ u : State, u.eeprom = s.eeprom ∧ (s.eeSeq ≠ .gotAA → u.eeBusy = s.eeBusy) ∧ u.EeTime t) := by
  rcases step_cases h with ⟨k, hr, rfl⟩ | ⟨hr, _, rfl⟩ | ⟨hr, _, hcase⟩
  · exact Or.inl ⟨by simp [hr], takeReset_eeReset k s⟩
  · exact Or.inr ⟨hr, s, rfl, fun _ => rfl, Or.inl (advanceEnv_eeSame s)⟩
  · refine Or.inr ⟨hr, ?_⟩
    rcases hcase with ⟨_, rfl⟩ | ⟨_, _, _, rfl⟩ | ⟨_, _, _, rfl⟩ | ⟨_, _, _, rfl⟩ | ⟨_, _, ph, i, u, _, he, rfl⟩
    · exact ⟨{ s with inReset := false, ostLeft := s.ostLeft - 1 }, rfl, fun _ => rfl, idleCycle_eeTime _⟩
    · exact ⟨s, rfl, fun _ => rfl, Or.inl ⟨rfl, rfl, rfl, rfl⟩⟩
    · exact ⟨{ s with inReset := false, irqPhase := .fresh }, rfl, fun _ => rfl, idleCycle_eeTime _⟩
    · exact ⟨interruptEntry { s with inReset := false, irqPhase := .fresh }, rfl, fun _ => rfl, tick_eeTime 2 _⟩
    · have hcells := lessExec_eeprom (exec_frame he)
      have hbusy := exec_eeBusy he
      exact ⟨u, hcells, hbusy, tick_eeTime _ u⟩

/-- A step writes no cell but the one EEWADDR selects after it. -/
theorem step_eeprom (h : step s = .next t) :
    t.eeprom = s.eeprom ∨ ∃ v, t.eeprom = Memory.write eepromFill s.eeprom (eeCell t.eeWAddr) v := by
  rcases step_eeprom_cases h with ⟨_, hreset⟩ | ⟨_, u, hu, _, htime⟩
  · rw [hreset.addr]
    cases hb : s.eeBusy with
    | false => exact Or.inl (hreset.kept hb)
    | true => exact Or.inr (hreset.cells hb)
  · rw [← hu]
    rcases htime with a | a
    · exact Or.inl a.cells
    · rw [a.addr]; exact Or.inr a.cells

/-- Settles O40. -/
theorem onlyTheLatchedEepromCellChanges : Obligations.OnlyTheLatchedEepromCellChanges := by
  refine ⟨fun i s t h => lessExec_eeprom (exec_frame h), fun s t hinv h a ha => ?_, fun s t h => ?_⟩
  · unfold State.eeRead
    rcases step_eeprom h with e | ⟨v, e⟩
    · rw [e]
    · rw [e, Memory.read_write_other hinv.eepromForm v (by rw [eeCell_eq]; exact ha)]
  · rcases step_eeprom_cases h with ⟨hr, hreset⟩ | ⟨hr, u, hu, hstart, a | a⟩
    · exact ⟨fun hb => absurd (hreset.idle.symm.trans hb) (by simp), fun hn => absurd hn hr, fun hb _ => hreset.kept hb⟩
    · exact ⟨fun _ => a.cells.trans hu, fun _ _ => a.cells.trans hu, fun _ _ => a.cells.trans hu⟩
    · refine ⟨fun hb => absurd (a.idle.symm.trans hb) (by simp), fun _ hf => absurd (a.flag.symm.trans hf) (by simp),
        fun hb hcase => ?_⟩
      have hseq : s.eeSeq ≠ .gotAA := hcase.resolve_right (not_not.mpr hr)
      exact absurd (a.wasBusy.symm.trans ((hstart hseq).trans hb)) (by simp)

end Sys2Proof.Machine
end

section
/-! The encoding (R120 to R130): the decoder against the encoder, against R128's table of masks and matches, and against R130's
lists of don't-care bits and reserved words. -/

namespace Sys2Proof

variable {w : InstrWord} {i j : Instr}

/-! ### Decoding what the encoder writes -/

theorem decode_encode (i : Instr) : decode (encode i) = .ok i := by
  cases i
  case decfsz f d => exact Machine.decode_decfsz f d
  case incfsz f d => exact Machine.decode_incfsz f d
  case addwf | andwf | clrf | comf | decf | incf | iorwf | movf | movwf | rlf | rrf | subwf | swapf | xorwf =>
    rw [encode, decode_formatB _ _ _ rfl, decodeByteOriented, opcode_formatB, fieldF_formatB, fieldD_formatB]
    rfl
  case bcf | bsf | btfsc | btfss =>
    rw [encode, decode_formatT _ _ _ rfl, decodeBitOriented, opcode_formatT, fieldF_formatT, fieldB_formatT]
    rfl
  case addlw | andlw | iorlw | movlw | retlw | sublw | xorlw =>
    rw [encode, decode_formatL _ _ rfl, decodeLiteral, opcode_formatL, fieldK_formatL]
    rfl
  case call | goto =>
    rw [encode, decode_formatJ _ _ rfl, decodeJump, opcode_formatJ, fieldJ_formatJ]
    rfl
  case clrw | nop | clrwdt | retfie | ret | sleep | option | trisA | trisB => rfl

/-- Settles O1, format by format. -/
theorem decodeOfEncode : Obligations.DecodeOfEncode := decode_encode

/-- Two instructions with one word are the same. -/
theorem encode_injective (h : encode i = encode j) : i = j :=
  Except.ok.inj ((decode_encode i).symm.trans ((congrArg decode h).trans (decode_encode j)))

/-- Settles O5: the decoder runs on the ten closed words. -/
theorem specWordsDecode : Obligations.SpecWordsDecode :=
  ⟨rfl, rfl, rfl, rfl, rfl, rfl, rfl, rfl, rfl, rfl⟩

/-! ### The fields of a word as numbers -/

/-- The last alternative of a table on two bits. -/
theorem toNat_eq_three {x : BitVec 2} (h0 : x.toNat ≠ 0) (h1 : x.toNat ≠ 1) (h2 : x.toNat ≠ 2) : x.toNat = 3 := by
  omega

theorem toNat_extract (w : InstrWord) (start len : Nat) :
    (w.extractLsb' start len).toNat = w.toNat / 2 ^ start % 2 ^ len := by
  rw [BitVec.extractLsb'_toNat, Nat.shiftRight_eq_div_pow]

theorem toNat_bit_fieldD (w : InstrWord) : (fieldD w).bit.toNat = w.toNat / 2 ^ 7 % 2 := by
  unfold fieldD BitVec.getLsbD
  rw [Nat.testBit_eq_decide_div_mod_eq]
  split
  · next h => exact (of_decide_eq_true h).symm
  · next h =>
    have hbit : w.toNat / 2 ^ 7 % 2 ≠ 1 := by simpa using h
    show 0 = _
    omega

theorem toNat_bit_inj {d e : Dest} : d.bit.toNat = e.bit.toNat ↔ d = e := by
  cases d <;> cases e <;> decide

/-- The special group `00 0000 0` of R129 is the words under 80h. -/
theorem special_iff : w.toNat < 0x80
    ↔ (w.extractLsb' 12 2).toNat = 0 ∧ (w.extractLsb' 8 4).toNat = 0 ∧ fieldD w = .w := by
  rw [← toNat_bit_inj, toNat_bit_fieldD, toNat_extract, toNat_extract]
  show _ ↔ _ ∧ _ ∧ _ = 0
  have hw := w.isLt
  omega

theorem toNat_fieldF_special (h : w.toNat < 0x80) : (fieldF w).toNat = w.toNat := by
  rw [fieldF, toNat_extract]
  omega

/-! ### What the decoder reads stands in a row of R128

A row's mask is the high bits of the word down to the last one its opcode fills; NOP's alone is not. -/

/-- High bits under the mask of the high bits. -/
theorem and_highMask {n k : Nat} {x : BitVec (n + k)} {op : BitVec n} (h : x.extractLsb' k n = op) :
    x &&& (BitVec.allOnes n ++ 0#k) = op ++ 0#k := by
  have hx : x = op ++ x.extractLsb' 0 k := by
    rw [← h, BitVec.extractLsb'_append_extractLsb'_eq_extractLsb' (by omega), BitVec.extractLsb'_eq_self]
  rw [hx, BitVec.and_append, BitVec.and_allOnes, BitVec.and_zero]

/-- The same with the high bits as a number. -/
theorem and_highMask_of_div {n k o : Nat} {x : BitVec (n + k)} (h : x.toNat / 2 ^ k % 2 ^ n = o) :
    x &&& (BitVec.allOnes n ++ 0#k) = BitVec.ofNat n o ++ 0#k := by
  refine and_highMask (BitVec.eq_of_toNat_eq ?_)
  rw [BitVec.extractLsb'_toNat, Nat.shiftRight_eq_div_pow, BitVec.toNat_ofNat, ← h, Nat.mod_mod]

section
variable {c o : Nat} (hc : (w.extractLsb' 12 2).toNat = c)
include hc

/-- The opcode in `word[13:8]`. -/
theorem row_of_opcode6 (ho : (w.extractLsb' 8 4).toNat = o) : w &&& 0x3F00#14 = BitVec.ofNat 6 (16 * c + o) ++ 0#8 := by
  rw [toNat_extract] at hc ho
  exact and_highMask_of_div (n := 6) (k := 8) (by omega)

/-- The opcode in `word[13:7]`, the destination bit a part of it. -/
theorem row_of_opcode7 {d : Dest} (ho : (w.extractLsb' 8 4).toNat = o) (hd : fieldD w = d) :
    w &&& 0x3F80#14 = BitVec.ofNat 7 (32 * c + 2 * o + d.bit.toNat) ++ 0#7 := by
  rw [← hd, toNat_bit_fieldD]
  rw [toNat_extract] at hc ho
  exact and_highMask_of_div (n := 7) (k := 7) (by omega)

/-- The opcode in `word[13:9]`, read with a don't-care bit. -/
theorem row_of_opcode5 (ho : (w.extractLsb' 8 4).toNat = o) :
    w &&& 0x3E00#14 = BitVec.ofNat 5 (8 * c + o / 2) ++ 0#9 := by
  rw [toNat_extract] at hc ho
  exact and_highMask_of_div (n := 5) (k := 9) (by omega)

/-- The opcode in `word[13:10]`, read with two don't-care bits. -/
theorem row_of_opcode4 (ho : (w.extractLsb' 8 4).toNat = o) :
    w &&& 0x3C00#14 = BitVec.ofNat 4 (4 * c + o / 4) ++ 0#10 := by
  rw [toNat_extract] at hc ho
  exact and_highMask_of_div (n := 4) (k := 10) (by omega)

/-- The opcode in `word[13:10]` of format T. -/
theorem row_of_opcodeT (ho : (w.extractLsb' 10 2).toNat = o) :
    w &&& 0x3C00#14 = BitVec.ofNat 4 (4 * c + o) ++ 0#10 := by
  rw [toNat_extract] at hc ho
  exact and_highMask_of_div (n := 4) (k := 10) (by omega)

/-- The opcode in `word[13:11]` of format J. -/
theorem row_of_opcodeJ {b : Bool} (hb : w.getLsbD 11 = b) :
    w &&& 0x3800#14 = BitVec.ofNat 3 (2 * c + b.toNat) ++ 0#11 := by
  have ho : b.toNat = w.toNat / 2 ^ 11 % 2 := by rw [← hb, BitVec.getLsbD, Nat.toNat_testBit]
  rw [toNat_extract] at hc
  exact and_highMask_of_div (n := 3) (k := 11) (by omega)

end

theorem decodeSpecial_row (hw : w.toNat < 0x80) (h : decodeSpecial w = .ok i) : w &&& i.row.mask = i.row.value := by
  have word : ∀ n, (fieldF w).toNat = n → w = BitVec.ofNat 14 n := fun n hn => by
    rw [← hn, toNat_fieldF_special hw, BitVec.ofNat_toNat, BitVec.setWidth_eq]
  unfold decodeSpecial at h
  split at h
  case h_12 => cases h
  all_goals next hf => cases h; rw [word _ hf]; rfl

theorem decodeByteOriented_row (hc : (w.extractLsb' 12 2).toNat = 0) (h : decodeByteOriented w = .ok i) :
    w &&& i.row.mask = i.row.value := by
  unfold decodeByteOriented at h
  split at h
  case h_1 ho =>
    split at h
    · next hd => cases h; exact row_of_opcode7 hc ho hd
    · next hd => exact decodeSpecial_row (special_iff.mpr ⟨hc, ho, hd⟩) h
  case h_2 ho =>
    split at h <;> next hd => cases h; exact row_of_opcode7 hc ho hd
  case h_16 =>
    have ho : (w.extractLsb' 8 4).toNat = 15 := by
      have := (w.extractLsb' 8 4).isLt
      simp only [imp_false] at *
      omega
    cases h
    exact row_of_opcode6 hc ho
  all_goals next ho => cases h; exact row_of_opcode6 hc ho

theorem decodeBitOriented_row (hc : (w.extractLsb' 12 2).toNat = 1) :
    w &&& (decodeBitOriented w).row.mask = (decodeBitOriented w).row.value := by
  unfold decodeBitOriented
  split
  case h_4 h0 h1 h2 => exact row_of_opcodeT hc (toNat_eq_three h0 h1 h2)
  all_goals next ho => exact row_of_opcodeT hc ho

theorem decodeJump_row (hc : (w.extractLsb' 12 2).toNat = 2) :
    w &&& (decodeJump w).row.mask = (decodeJump w).row.value := by
  unfold decodeJump
  split
  · next hb => exact row_of_opcodeJ hc hb
  · next hb => exact row_of_opcodeJ hc (Bool.eq_false_iff.mpr hb)

theorem decodeLiteral_row (hc : (w.extractLsb' 12 2).toNat = 3) (h : decodeLiteral w = .ok i) :
    w &&& i.row.mask = i.row.value := by
  unfold decodeLiteral at h
  split at h
  case h_9 | h_10 | h_11 => next ho => cases h; exact row_of_opcode6 hc ho
  case h_12 => cases h
  case h_13 | h_14 => next ho => cases h; exact row_of_opcode5 hc ho
  case h_15 =>
    have ho : (w.extractLsb' 8 4).toNat / 2 = 7 := by
      have := (w.extractLsb' 8 4).isLt
      simp only [imp_false] at *
      omega
    cases h
    have hrow := row_of_opcode5 hc rfl
    rwa [ho] at hrow
  all_goals next ho => cases h; exact row_of_opcode4 hc ho

/-- The decoder's answer is an instruction whose row the word satisfies. -/
theorem row_of_decode (h : decode w = .ok i) : w &&& i.row.mask = i.row.value := by
  unfold decode at h
  split at h
  · next hc => exact decodeByteOriented_row hc h
  · next hc => cases h; exact decodeBitOriented_row hc
  · next hc => cases h; exact decodeJump_row hc
  · next h0 h1 h2 => exact decodeLiteral_row (toNat_eq_three h0 h1 h2) h

end Sys2Proof
end

section
/-! R128's table read the other way: a word that satisfies an instruction's row decodes to that instruction with the operands the
word's fields hold, and the encoder writes that instruction's word with the don't-care bits 0. -/

namespace Sys2Proof

variable {w v m dc : InstrWord} {i : Instr}

/-- The instruction of `i`'s row of R128 whose operands are the fields of `w` (R127). -/
def Instr.readFrom (w : InstrWord) : Instr → Instr
  | .addwf .. => .addwf (fieldF w) (fieldD w)
  | .andwf .. => .andwf (fieldF w) (fieldD w)
  | .clrf .. => .clrf (fieldF w)
  | .clrw => .clrw
  | .comf .. => .comf (fieldF w) (fieldD w)
  | .decf .. => .decf (fieldF w) (fieldD w)
  | .decfsz .. => .decfsz (fieldF w) (fieldD w)
  | .incf .. => .incf (fieldF w) (fieldD w)
  | .incfsz .. => .incfsz (fieldF w) (fieldD w)
  | .iorwf .. => .iorwf (fieldF w) (fieldD w)
  | .movf .. => .movf (fieldF w) (fieldD w)
  | .movwf .. => .movwf (fieldF w)
  | .nop => .nop
  | .rlf .. => .rlf (fieldF w) (fieldD w)
  | .rrf .. => .rrf (fieldF w) (fieldD w)
  | .subwf .. => .subwf (fieldF w) (fieldD w)
  | .swapf .. => .swapf (fieldF w) (fieldD w)
  | .xorwf .. => .xorwf (fieldF w) (fieldD w)
  | .bcf .. => .bcf (fieldF w) (fieldB w)
  | .bsf .. => .bsf (fieldF w) (fieldB w)
  | .btfsc .. => .btfsc (fieldF w) (fieldB w)
  | .btfss .. => .btfss (fieldF w) (fieldB w)
  | .addlw _ => .addlw (fieldK w)
  | .andlw _ => .andlw (fieldK w)
  | .call _ => .call (fieldJ w)
  | .clrwdt => .clrwdt
  | .goto _ => .goto (fieldJ w)
  | .iorlw _ => .iorlw (fieldK w)
  | .movlw _ => .movlw (fieldK w)
  | .retfie => .retfie
  | .retlw _ => .retlw (fieldK w)
  | .ret => .ret
  | .sleep => .sleep
  | .sublw _ => .sublw (fieldK w)
  | .xorlw _ => .xorlw (fieldK w)
  | .option => .option
  | .trisA => .trisA
  | .trisB => .trisB

theorem readFrom_row (w : InstrWord) (i : Instr) : (i.readFrom w).row = i.row := by cases i <;> rfl

/-! ### The bits a mask fixes -/

/-- A field under a mask is compared with the value's field. -/
theorem extract_and_of_row (h : w &&& m = v) (start len : Nat) :
    w.extractLsb' start len &&& m.extractLsb' start len = v.extractLsb' start len := by
  rw [← h, BitVec.extractLsb'_and]

/-- A field the mask covers has the value's bits. -/
theorem extract_of_row (h : w &&& m = v) (start len : Nat) (hm : m.extractLsb' start len = BitVec.allOnes len) :
    w.extractLsb' start len = v.extractLsb' start len := by
  rw [← extract_and_of_row h, hm, BitVec.and_allOnes]

theorem fieldD_of_row (h : w &&& m = v) (hm : m.getLsbD 7 = true) : fieldD w = fieldD v := by
  unfold fieldD
  rw [← h, BitVec.getLsbD_and, hm, Bool.and_true]

/-! ### A word is built of its fields -/

theorem bit_fieldD (w : InstrWord) : (fieldD w).bit = w.extractLsb' 7 1 :=
  BitVec.eq_of_toNat_eq ((toNat_bit_fieldD w).trans (toNat_extract w 7 1).symm)

/-- Two neighbouring parts of a word that end at bit 0. -/
theorem extract_append_rest (w : InstrWord) (mid len : Nat) :
    w.extractLsb' mid len ++ w.extractLsb' 0 mid = w.extractLsb' 0 (len + mid) :=
  BitVec.extractLsb'_append_extractLsb'_eq_extractLsb' (Nat.zero_add mid).symm

theorem formatL_fields (w : InstrWord) : formatL (w.extractLsb' 8 6) (fieldK w) = w :=
  (extract_append_rest w 8 6).trans (extract_all w)

theorem formatJ_fields (w : InstrWord) : formatJ (w.extractLsb' 11 3) (fieldJ w) = w :=
  (extract_append_rest w 11 3).trans (extract_all w)

theorem formatB_fields (w : InstrWord) : formatB (w.extractLsb' 8 6) (fieldD w) (fieldF w) = w := by
  have hop : w.extractLsb' 8 6 ++ w.extractLsb' 7 1 = w.extractLsb' 7 7 :=
    BitVec.extractLsb'_append_extractLsb'_eq_extractLsb' rfl
  rw [formatB, bit_fieldD, hop]
  exact (extract_append_rest w 7 7).trans (extract_all w)

theorem formatT_fields (w : InstrWord) : formatT (w.extractLsb' 10 4) (fieldB w) (fieldF w) = w := by
  have hop : w.extractLsb' 10 4 ++ w.extractLsb' 7 3 = w.extractLsb' 7 7 :=
    BitVec.extractLsb'_append_extractLsb'_eq_extractLsb' rfl
  rw [formatT, fieldB, hop]
  exact (extract_append_rest w 7 7).trans (extract_all w)

/-! ### The word of a row, its don't-care bits cleared, is built of the row's opcode and the operand fields -/

theorem and_not_zero (w : InstrWord) : w &&& ~~~0x0000#14 = w := BitVec.and_allOnes

theorem formatB_of_row {op : BitVec 6} (h : w &&& m = v) (hm : m.extractLsb' 8 6 = BitVec.allOnes 6)
    (hv : v.extractLsb' 8 6 = op) : formatB op (fieldD w) (fieldF w) = w &&& ~~~0x0000#14 := by
  rw [and_not_zero, ← hv, ← extract_of_row h 8 6 hm, formatB_fields]

theorem formatT_of_row {op : BitVec 4} (h : w &&& m = v) (hm : m.extractLsb' 10 4 = BitVec.allOnes 4)
    (hv : v.extractLsb' 10 4 = op) : formatT op (fieldB w) (fieldF w) = w &&& ~~~0x0000#14 := by
  rw [and_not_zero, ← hv, ← extract_of_row h 10 4 hm, formatT_fields]

theorem formatJ_of_row {op : BitVec 3} (h : w &&& m = v) (hm : m.extractLsb' 11 3 = BitVec.allOnes 3)
    (hv : v.extractLsb' 11 3 = op) : formatJ op (fieldJ w) = w &&& ~~~0x0000#14 := by
  rw [and_not_zero, ← hv, ← extract_of_row h 11 3 hm, formatJ_fields]

/-- Format L is the one whose opcode can hold don't-care bits: the bits of it that the mask leaves out. -/
theorem formatL_of_row {op : BitVec 6} (h : w &&& m = v) (hm : (~~~dc).extractLsb' 8 6 = m.extractLsb' 8 6)
    (hk : (~~~dc).extractLsb' 0 8 = BitVec.allOnes 8) (hv : v.extractLsb' 8 6 = op) :
    formatL op (fieldK w) = w &&& ~~~dc := by
  have hop : (w &&& ~~~dc).extractLsb' 8 6 = op := by
    rw [BitVec.extractLsb'_and, hm, extract_and_of_row h, hv]
  have hfield : fieldK (w &&& ~~~dc) = fieldK w := by
    rw [fieldK, BitVec.extractLsb'_and, hk, BitVec.and_allOnes, fieldK]
  rw [← hop, ← hfield, formatL_fields]

/-- Encoding what the fields of a row's word hold gives the word back with its don't-care bits 0. -/
theorem encode_readFrom (h : w &&& i.row.mask = i.row.value) : encode (i.readFrom w) = w &&& ~~~i.dontCare := by
  cases i
  all_goals simp only [Instr.row] at h
  all_goals simp only [Instr.readFrom, encode, Instr.dontCare]
  case addwf | andwf | comf | decf | decfsz | incf | incfsz | iorwf | movf | rlf | rrf | subwf | swapf | xorwf =>
    exact formatB_of_row h rfl rfl
  case clrf | movwf =>
    have hd : fieldD w = .f := fieldD_of_row h rfl
    rw [← hd]
    exact formatB_of_row h rfl rfl
  case bcf | bsf | btfsc | btfss => exact formatT_of_row h rfl rfl
  case addlw | andlw | iorlw | movlw | retlw | sublw | xorlw => exact formatL_of_row h rfl rfl rfl
  case call | goto => exact formatJ_of_row h rfl rfl
  case clrw | nop | clrwdt | retfie | ret | sleep | option | trisA | trisB => exact h.symm

/-! ### Decoding a word of a row -/

theorem opcode_of_and_1110 : ∀ op v : BitVec 4, op &&& 0b1110#4 = v → op = v ∨ op = v + 1#4 := by decide

theorem opcode_of_and_1100 :
    ∀ op v : BitVec 4, op &&& 0b1100#4 = v → op = v ∨ op = v + 1#4 ∨ op = v + 2#4 ∨ op = v + 3#4 := by decide

theorem fieldF_of_nop : ∀ f : FileAddr, f &&& 0x1F#7 = 0x00#7 → f = 0x00#7 ∨ f = 0x20#7 ∨ f = 0x40#7 ∨ f = 0x60#7 := by
  decide

theorem decode_class0 (hc : w.extractLsb' 12 2 = 0b00#2) : decode w = decodeByteOriented w := by
  rw [decode, hc]; rfl

theorem decode_class3 (hc : w.extractLsb' 12 2 = 0b11#2) : decode w = decodeLiteral w := by
  rw [decode, hc]; rfl

/-- A word that satisfies an instruction's row decodes to the instruction of that row with the word's fields as operands. -/
theorem decode_of_row (h : w &&& i.row.mask = i.row.value) : decode w = .ok (i.readFrom w) := by
  by_cases hdc : i.dontCare = 0x0000#14
  · have hword : encode (i.readFrom w) = w := by rw [encode_readFrom h, hdc, and_not_zero]
    rw [← decode_encode (i.readFrom w), hword]
  · cases i
    all_goals simp only [Instr.row] at h
    case clrw =>
      have hd : fieldD w = .w := fieldD_of_row h rfl
      rw [decode_class0 (extract_of_row h 12 2 rfl), decodeByteOriented, extract_of_row h 8 4 rfl, hd]
      rfl
    case nop =>
      have hd : fieldD w = .w := fieldD_of_row h rfl
      rw [decode_class0 (extract_of_row h 12 2 rfl), decodeByteOriented, extract_of_row h 8 4 rfl, hd]
      show decodeSpecial w = _
      rw [decodeSpecial]
      rcases fieldF_of_nop (fieldF w) (extract_and_of_row h 0 7) with hf | hf | hf | hf <;> rw [hf] <;> rfl
    case movlw | retlw =>
      rw [decode_class3 (extract_of_row h 12 2 rfl), decodeLiteral]
      rcases opcode_of_and_1100 _ _ (extract_and_of_row h 8 4) with ho | ho | ho | ho <;> rw [ho] <;> rfl
    case sublw | addlw =>
      rw [decode_class3 (extract_of_row h 12 2 rfl), decodeLiteral]
      rcases opcode_of_and_1110 _ _ (extract_and_of_row h 8 4) with ho | ho <;> rw [ho] <;> rfl
    all_goals exact absurd rfl hdc

/-- Settles O2: the word's row gives the decoder's answer, and the answer has that row. -/
theorem decodeFollowsTheOpcodeTable : Obligations.DecodeFollowsTheOpcodeTable :=
  ⟨fun _ _ h => row_of_decode h, fun w i h => ⟨i.readFrom w, decode_of_row h, readFrom_row w i⟩⟩

/-- The operands the decoder answers are the word's fields. -/
theorem readFrom_of_decode (h : decode w = .ok i) : i.readFrom w = i :=
  Except.ok.inj ((decode_of_row (row_of_decode h)).symm.trans h)

theorem encode_of_decode (h : decode w = .ok i) : encode i = w &&& ~~~i.dontCare := by
  rw [← encode_readFrom (row_of_decode h), readFrom_of_decode h]

/-- Settles O3: a decoded word lies in its row, and `encode_readFrom` rebuilds it. -/
theorem decodeReadsEveryOperandBit : Obligations.DecodeReadsEveryOperandBit := fun _ _ h => encode_of_decode h

/-! ### Don't-care bits and reserved words -/

/-- A row's mask leaves its don't-care bits out. -/
theorem row_mask_dontCare (i : Instr) : ~~~i.dontCare &&& i.row.mask = i.row.mask := by
  cases i <;> simp only [Instr.dontCare, Instr.row] <;> decide

/-- Words that differ in don't-care bits of one of them only are the same instruction. -/
theorem decode_of_dontCare (h : decode w = .ok i) (hv : w &&& ~~~i.dontCare = v &&& ~~~i.dontCare) : decode v = .ok i := by
  have hrow : v &&& i.row.mask = i.row.value := by
    rw [← row_of_decode h, ← row_mask_dontCare, ← BitVec.and_assoc, ← BitVec.and_assoc, hv]
  have hsame : i.readFrom v = i :=
    encode_injective (by rw [encode_readFrom hrow, encode_of_decode h, hv])
  rw [decode_of_row hrow, hsame]

theorem decodeSpecial_error_iff : (∃ r, decodeSpecial w = .error r)
    ↔ [0x00, 0x20, 0x40, 0x60, 0x08, 0x09, 0x62, 0x63, 0x64, 0x65, 0x66].contains (fieldF w).toNat = false := by
  unfold decodeSpecial
  split
  case h_12 => simp_all
  all_goals next hf => simp [hf]

theorem decodeByteOriented_error_iff : (∃ r, decodeByteOriented w = .error r)
    ↔ (w.extractLsb' 8 4).toNat = 0 ∧ fieldD w = .w ∧ ∃ r, decodeSpecial w = .error r := by
  unfold decodeByteOriented
  split
  case h_1 ho => cases hd : fieldD w <;> simp [ho]
  case h_2 ho => cases hd : fieldD w <;> simp [ho]
  case h_16 => simp_all
  all_goals next ho => simp [ho]

theorem decodeLiteral_error_iff : (∃ r, decodeLiteral w = .error r) ↔ (w.extractLsb' 8 4).toNat = 0b1011 := by
  unfold decodeLiteral
  split
  case h_15 => simp_all
  all_goals next ho => simp [ho]

theorem decode_error_iff : (∃ r, decode w = .error r)
    ↔ (w.toNat < 0x80 ∧ ∃ r, decodeSpecial w = .error r)
      ∨ ((w.extractLsb' 12 2).toNat = 0b11 ∧ (w.extractLsb' 8 4).toNat = 0b1011) := by
  rw [special_iff]
  unfold decode
  split
  · next hc => simp [decodeByteOriented_error_iff, hc, and_assoc]
  · next hc => simp [hc]
  · next hc => simp [hc]
  · next h0 h1 h2 => simp [decodeLiteral_error_iff, toNat_eq_three h0 h1 h2]

/-- The reserved words `11 1011 xxxx xxxx`. -/
theorem reservedLiteral_iff : (w.extractLsb' 12 2).toNat = 0b11 ∧ (w.extractLsb' 8 4).toNat = 0b1011
    ↔ 0x3B00 ≤ w.toNat ∧ w.toNat ≤ 0x3BFF := by
  rw [toNat_extract, toNat_extract]
  have hw := w.isLt
  omega

theorem decode_refuses_iff (w : InstrWord) : (∃ r, decode w = .error r) ↔ reservedWord w = true := by
  rw [decode_error_iff, reservedLiteral_iff, decodeSpecial_error_iff, reservedWord, Bool.or_eq_true, Bool.and_eq_true,
    Bool.and_eq_true, Bool.not_eq_true', decide_eq_true_iff, decide_eq_true_iff, decide_eq_true_iff, or_comm]
  exact or_congr_right (and_congr_right fun hw => by rw [toNat_fieldF_special hw])

/-- A step that would run a word the decoder refuses is refused. -/
theorem step_refuses {s : Machine.State} (hs : s.RunsInstruction) (h : ∃ r, decode s.fetch = .error r) :
    Machine.step s = .refused (.reservedWord s.fetch) := by
  obtain ⟨r, hr⟩ := h
  have hfetch : decode ({ s with inReset := false, irqPhase := s.phaseDuring } : Machine.State).fetch = .error r := hr
  rw [Machine.step_runs hs, Machine.runInstruction, hfetch]
  rfl

/-- Settles O4. -/
theorem reservedWordsAreRefused : Obligations.ReservedWordsAreRefused :=
  ⟨decode_refuses_iff, fun s hs h => step_refuses hs ((decode_refuses_iff s.fetch).mpr h),
    fun _ _ _ h hv => decode_of_dontCare h hv⟩

end Sys2Proof
end

section
/-! TRIS (R215, assumption log entry 13): what the two words do where the run admits them, and their refusal. -/

namespace Sys2Proof.Machine

variable {s : State}

theorem execTrisA_admitted (h : s.cfg.admitTris = true) :
    exec .trisA s = .next { s.sequential with trisa := s.w.extractLsb' 0 5 } := if_pos h

theorem execTrisB_admitted (h : s.cfg.admitTris = true) : exec .trisB s = .next { s.sequential with trisb := s.w } :=
  if_pos h

theorem execTris_refused (h : s.cfg.admitTris = false) :
    exec .trisA s = .refused .trisNotAdmitted ∧ exec .trisB s = .refused .trisNotAdmitted :=
  ⟨if_neg (by simp [h]), if_neg (by simp [h])⟩

/-- Settles O35. -/
theorem trisResults : Obligations.TrisResults := by
  refine ⟨rfl, rfl, fun s => ⟨fun h => ⟨?_, execTrisB_admitted h⟩, execTris_refused⟩⟩
  refine ⟨_, execTrisA_admitted h, fun n hn => ?_, rfl⟩
  show (s.w.extractLsb' 0 5).getLsbD n = _
  simp [hn]

end Sys2Proof.Machine
end

section
/-! The byte-oriented instructions and the moves and clears of W (R150 to R164, R206): each completes with its result at the
destination and its flags. What is left to say of one is its operation as a number, with the flags it writes. -/

namespace Sys2Proof.Machine

variable (s : State)

/-! ### The operations as numbers -/

/-- The result of an operation that writes Z only, with Z as a condition on the operand (R31). -/
theorem withZ_of_iff {v r : Byte} {p : Prop} [Decidable p] (hr : v = r) (hz : v = 0x00#8 ↔ p) :
    AluResult.withZ v = ⟨r, ⟨some (decide p), none, none⟩⟩ := by
  rw [withZ_eq, hr, decide_eq_decide.mpr (hr ▸ hz)]

/-- COMF (R154): the complement, as the distance to FFh. -/
theorem complement_eq_ofNat (a : Byte) : ~~~a = BitVec.ofNat 8 (255 - a.toNat) := by
  apply BitVec.eq_of_toNat_eq
  rw [BitVec.toNat_not, BitVec.toNat_ofNat]
  omega

theorem complement_eq_zero_iff (a : Byte) : ~~~a = 0x00#8 ↔ a.toNat = 255 := by
  have ha := a.isLt
  rw [← BitVec.toNat_inj, BitVec.toNat_not, BitVec.toNat_ofNat]
  omega

/-! ### The meaning of each instruction -/

theorem exec_andwf (f : FileAddr) (d : Dest) : exec (.andwf f d) s = fileOp f d (fun a => aluAnd a s.w) s := rfl

theorem exec_iorwf (f : FileAddr) (d : Dest) : exec (.iorwf f d) s = fileOp f d (fun a => aluOr a s.w) s := rfl

theorem exec_comf (f : FileAddr) (d : Dest) : exec (.comf f d) s = fileOp f d (fun a => .withZ (~~~a)) s := rfl

theorem exec_incf (f : FileAddr) (d : Dest) : exec (.incf f d) s = fileOp f d (fun a => .withZ (incByte a)) s := rfl

theorem exec_decf (f : FileAddr) (d : Dest) : exec (.decf f d) s = fileOp f d (fun a => .withZ (decByte a)) s := rfl

theorem exec_rlf (f : FileAddr) (d : Dest) : exec (.rlf f d) s = fileOp f d (fun a => aluRlf a s.carry) s := rfl

theorem exec_rrf (f : FileAddr) (d : Dest) : exec (.rrf f d) s = fileOp f d (fun a => aluRrf a s.carry) s := rfl

theorem exec_movf (f : FileAddr) (d : Dest) : exec (.movf f d) s = fileOp f d (fun a => .withZ a) s := rfl

theorem exec_movwf (f : FileAddr) : exec (.movwf f) s = fileOp f .f (fun _ => .plain s.w) s := rfl

theorem exec_clrw : exec .clrw s = literalOp (.withZ 0x00#8) s := rfl

theorem exec_movlw (k : Byte) : exec (.movlw k) s = literalOp (.plain k) s := rfl

theorem exec_nop : exec .nop s = .next s.sequential := rfl

/-! ### All words of CLRW and MOVLW -/

/-- The low seven bits of CLRW's word are don't-care bits (R130). -/
theorem decode_clrw (f : FileAddr) : decode (formatB 0b000001#6 .w f) = .ok .clrw := by
  rw [decode_formatB _ _ _ rfl, decodeByteOriented, opcode_formatB, fieldD_formatB]
  rfl

/-- The low two bits of MOVLW's opcode are don't-care bits (R130). -/
theorem decode_movlw {op : BitVec 6} (k : Byte) (h : op &&& 0b111100#6 = 0b110000#6) :
    decode (formatL op k) = .ok (.movlw k) := by
  have hrow : formatL op k &&& (Instr.movlw k).row.mask = (Instr.movlw k).row.value := by
    refine (Laws.formatL_and op 0b111100#6 k).trans ?_
    rw [h]
    rfl
  rw [decode_of_row hrow, Instr.readFrom, fieldK_formatL]

/-! ### The obligations -/

/-- Settles O18. -/
theorem addwfResult : Obligations.AddwfResult := fun f d s =>
  ⟨decode_encode (.addwf f d), fileResult_of_fileOp s (exec_addwf s f d) (aluAdd_eq _ _)⟩

/-- Settles O20: the results of ANDWF and IORWF bit by bit, that of COMF as a number. -/
theorem logicFileResults : Obligations.LogicFileResults := by
  refine fun f d s => ⟨⟨decode_encode (.andwf f d), s.operand f &&& s.w, fun _ => BitVec.getLsbD_and, ?_⟩,
    ⟨decode_encode (.iorwf f d), s.operand f ||| s.w, fun _ => BitVec.getLsbD_or, ?_⟩, decode_encode (.comf f d), ?_⟩
  · exact fileResult_of_fileOp s (exec_andwf s f d) (withZ_eq _)
  · exact fileResult_of_fileOp s (exec_iorwf s f d) (withZ_eq _)
  · exact fileResult_of_fileOp s (exec_comf s f d) (withZ_of_iff (complement_eq_ofNat _) (complement_eq_zero_iff _))

/-- Settles O21. -/
theorem incrementDecrementResults : Obligations.IncrementDecrementResults := by
  refine fun f d s => ⟨decode_encode (.incf f d), ?_, decode_encode (.decf f d), ?_⟩
  · exact fileResult_of_fileOp s (exec_incf s f d) (withZ_of_iff (incByte_eq _) (incByte_zero _))
  · exact fileResult_of_fileOp s (exec_decf s f d) (withZ_of_iff (decByte_eq _) (decByte_zero _))

/-- Settles O23. -/
theorem rotateResults : Obligations.RotateResults := by
  refine fun f d s => ⟨decode_encode (.rlf f d), decode_encode (.rrf f d), ?_, ?_⟩
  · exact fileResult_of_fileOp s (exec_rlf s f d) (aluRlf_eq _ _)
  · exact fileResult_of_fileOp s (exec_rrf s f d) (aluRrf_eq _ _)

/-- Settles O22: `fileOp` reads the register before it writes, for MOVWF and CLRF too, whose results ignore what was read. -/
theorem moveAndClearResults : Obligations.MoveAndClearResults := by
  refine fun f d s => ⟨decode_encode (.movf f d), decode_encode (.movwf f), decode_encode (.clrf f), ?_, ?_, ?_⟩
  · exact fileResult_of_fileOp s (exec_movf s f d) (withZ_of_iff rfl BitVec.toNat_inj.symm)
  · exact fileResult_of_fileOp s (exec_movwf s f) rfl
  · exact fileResult_of_fileOp s (exec_clrf s f) rfl

/-- Settles O29. -/
theorem clrwMovlwNopResults : Obligations.ClrwMovlwNopResults := by
  refine fun k f s => ⟨decode_clrw f, ⟨?_, ?_, ?_, ?_⟩, ⟨rfl, rfl, rfl, rfl⟩, ?_, ?_, exec_nop s⟩
  · exact decode_movlw k rfl
  · exact decode_movlw k rfl
  · exact decode_movlw k rfl
  · exact decode_movlw k rfl
  · exact literalResult_of_literalOp s (exec_clrw s)
  · exact literalResult_of_literalOp s (exec_movlw s k)

end Sys2Proof.Machine
end

section
/-! The bit-oriented instructions (R190 to R193): BCF and BSF have the shape `f,d` with the file register as destination and no
flag; BTFSC and BTFSS read the register, and the bit's value decides whether the next word is skipped. -/

namespace Sys2Proof.Machine

variable {s : State} {f : FileAddr}

/-! ### The meaning of each instruction -/

theorem exec_bcf (f : FileAddr) (b : BitNo) (s : State) :
    exec (.bcf f b) s = fileOp f .f (fun a => .plain (clearBit a b)) s := rfl

theorem exec_bsf (f : FileAddr) (b : BitNo) (s : State) :
    exec (.bsf f b) s = fileOp f .f (fun a => .plain (setBit a b)) s := rfl

theorem exec_btfsc (f : FileAddr) (b : BitNo) (s : State) :
    exec (.btfsc f b) s = bitTest f (fun a => !a.getLsbD b.toNat) s := rfl

theorem exec_btfss (f : FileAddr) (b : BitNo) (s : State) :
    exec (.btfss f b) s = bitTest f (fun a => a.getLsbD b.toNat) s := rfl

/-! ### The two outcomes of a bit test -/

/-- The condition holds: the next word is discarded in a second cycle (R148). -/
theorem bitTest_skips {cond : Byte → Bool} (h : cond (s.operand f) = true) :
    bitTest f cond s = .next { s.afterRead f with pc := s.pc + 2, cycles := 2 } := by
  rw [bitTest_eq, h]
  rfl

/-- The condition fails: only the read's effect remains. -/
theorem bitTest_goesOn {cond : Byte → Bool} (h : cond (s.operand f) = false) :
    bitTest f cond s = .next (s.afterRead f) := by
  rw [bitTest_eq, h]
  rfl

/-! ### The obligations -/

/-- Settles O25: the byte written back is `clearBit` or `setBit` of the byte read. -/
theorem bitWriteResults : Obligations.BitWriteResults := by
  refine fun f b s => ⟨decode_encode (.bcf f b), decode_encode (.bsf f b), ?_, ?_⟩
  · exact ⟨clearBit (s.operand f) b, clearBit_getLsbD _ b, fileResult_of_fileOp s (exec_bcf f b s) rfl⟩
  · exact ⟨setBit (s.operand f) b, setBit_getLsbD _ b, fileResult_of_fileOp s (exec_bsf f b s) rfl⟩

/-- Settles O26: for each value of the bit, one of the two instructions skips and the other goes on. -/
theorem bitTestResults : Obligations.BitTestResults := by
  refine fun f b s => ⟨decode_encode (.btfsc f b), decode_encode (.btfss f b), fun hclear => ⟨?_, ?_⟩, fun hset => ⟨?_, ?_⟩⟩
  · exact (exec_btfsc f b s).trans (bitTest_skips (congrArg (!·) hclear))
  · exact (exec_btfss f b s).trans (bitTest_goesOn hclear)
  · exact (exec_btfss f b s).trans (bitTest_skips hset)
  · exact (exec_btfsc f b s).trans (bitTest_goesOn (congrArg (!·) hset))

end Sys2Proof.Machine
end

section
/-! The literal and control instructions (R200 to R211) and OPTION (R214): their words with don't-care bits, where CALL and GOTO
go, and what CLRWDT, SLEEP and RETFIE make of STATUS and INTCON. -/

namespace Sys2Proof

variable {i : Instr} {dc op op' : BitVec 6} {k : Byte}

/-- Opcodes of format L that agree but for the don't-care bits of the instruction's opcode are words of it (R130). -/
theorem decode_formatL_of_dontCare (hdc : i.dontCare = (dc ++ 0#8 : InstrWord)) (h : decode (formatL op k) = .ok i)
    (hop : op &&& ~~~dc = op' &&& ~~~dc) : decode (formatL op' k) = .ok i := by
  refine decode_of_dontCare h ?_
  rw [hdc]
  show (op ++ k) &&& ~~~(dc ++ 0#8) = (op' ++ k) &&& ~~~(dc ++ 0#8)
  rw [BitVec.not_append, Laws.append_and_append, Laws.append_and_append, hop]

namespace Machine

variable (s : State)

/-! ### The meaning of each instruction -/

theorem exec_addlw (k : Byte) : exec (.addlw k) s = literalOp (aluAdd s.w k) s := rfl

theorem exec_sublw (k : Byte) : exec (.sublw k) s = literalOp (aluSub k s.w) s := rfl

theorem exec_andlw (k : Byte) : exec (.andlw k) s = literalOp (aluAnd s.w k) s := rfl

theorem exec_iorlw (k : Byte) : exec (.iorlw k) s = literalOp (aluOr s.w k) s := rfl

theorem exec_call (k : JumpLit) : exec (.call k) s = .next ((s.push (s.pc + 1)).jump (s.pageTarget k)) := rfl

theorem exec_goto (k : JumpLit) : exec (.goto k) s = .next (s.jump (s.pageTarget k)) := rfl

theorem exec_ret : exec .ret s = .next (s.drop.jump s.top) := rfl

theorem exec_retlw (k : Byte) : exec (.retlw k) s = .next { s.drop.jump s.top with w := k } := rfl

theorem exec_retfie : exec .retfie s = .next (returnFromInterrupt s) := rfl

theorem exec_clrwdt :
    exec .clrwdt s = .next { (clearWdt s).sequential with status := withToPd s.status true true } := rfl

theorem exec_option : exec .option s = .next { s.sequential with optionReg := s.w } := rfl

variable {s}

/-- A flag stands with its enable: SLEEP is a NOP (R265). -/
theorem exec_sleep_of_wakePending (h : s.wakePending = true) : exec .sleep s = .next s.sequential := if_pos h

theorem exec_sleep_of_not_wakePending (h : s.wakePending = false) :
    exec .sleep s
      = .next { (clearWdt s).sequential with status := withToPd s.status true false, sleeping := true } :=
  if_neg (Bool.eq_false_iff.mp h)

/-! ### What they compute -/

/-- A literal instruction whose operation has result `r` and flags `u` completes with them. -/
theorem literalResult_of_alu {i : Instr} {a : AluResult} {r : Byte} {u : FlagUpdate} (he : exec i s = literalOp a s)
    (ha : a = ⟨r, u⟩) : LiteralResult i s r u :=
  literalResult_of_literalOp s (ha ▸ he)

/-- `PCLATH[4:3] : k` as a number (R25). -/
theorem pageTarget_toNat (s : State) (k : JumpLit) :
    (s.pageTarget k).toNat = s.pclath.toNat / 8 * 2048 + k.toNat := by
  have hpage : s.pclath.toNat / 8 < 4 := by omega
  show (@BitVec.toNat (2 + 11) (_ ++ _)) = _
  rw [BitVec.toNat_append, ← Nat.shiftLeft_add_eq_or_of_lt k.isLt, Nat.shiftLeft_eq, BitVec.extractLsb'_toNat,
    Nat.shiftRight_eq_div_pow, Nat.mod_eq_of_lt hpage]

/-- Replacing TO and PD leaves the other bits of STATUS (R32). -/
theorem withToPd_getLsbD_other (status : Byte) (toBit pdBit : Bool) {n : Nat} (h3 : n ≠ 3) (h4 : n ≠ 4) :
    (withToPd status toBit pdBit).getLsbD n = status.getLsbD n := by
  rw [withToPd_getLsbD, if_neg h4, if_neg h3]

/-! ### The obligations -/

/-- Settles O30. -/
theorem callAndGotoResults : Obligations.CallAndGotoResults := by
  refine fun k s => ⟨decode_encode (.call k), decode_encode (.goto k), ?_, ?_⟩
  · refine ⟨_, exec_call s k, pageTarget_toNat s k, rfl, rfl, ?_, fun p hp => ?_, rfl⟩
    · exact (push_stkAt s _ s.sp).trans (if_pos rfl)
    · exact (push_stkAt s _ p).trans (if_neg hp)
  · exact ⟨_, exec_goto s k, pageTarget_toNat s k, rfl, rfl⟩

/-- Settles O27: the words that set bit 8 differ from the encoder's in a don't-care bit. -/
theorem addSubLiteralResults : Obligations.AddSubLiteralResults := by
  refine fun k s => ⟨decode_encode (.addlw k), ?_, decode_encode (.sublw k), ?_, ?_, ?_⟩
  · exact decode_formatL_of_dontCare (dc := 0b000001#6) rfl (decode_encode (.addlw k)) rfl
  · exact decode_formatL_of_dontCare (dc := 0b000001#6) rfl (decode_encode (.sublw k)) rfl
  · exact literalResult_of_alu (exec_addlw s k) (aluAdd_eq _ _)
  · exact literalResult_of_alu (exec_sublw s k) (aluSub_eq _ _)

/-- Settles O28. -/
theorem logicLiteralResults : Obligations.LogicLiteralResults := by
  refine fun k s => ⟨decode_encode (.andlw k), decode_encode (.iorlw k),
    ⟨s.w &&& k, fun _ => BitVec.getLsbD_and, ?_⟩, ⟨s.w ||| k, fun _ => BitVec.getLsbD_or, ?_⟩⟩
  · exact literalResult_of_alu (exec_andlw s k) (withZ_eq _)
  · exact literalResult_of_alu (exec_iorlw s k) (withZ_eq _)

/-- Settles O31: the stack's cells stay as they are, and RETFIE's INTCON is the old one with GIE set. -/
theorem returnResults : Obligations.ReturnResults := by
  refine fun k s => ⟨⟨decode_encode .ret, decode_encode .retfie, decode_encode (.retlw k), ?_, ?_, ?_⟩, exec_ret s,
    exec_retlw s k, _, exec_retfie s, withGie_getLsbD s.intcon true 7, fun n hn => ?_, rfl⟩
  · exact decode_formatL_of_dontCare (dc := 0b000011#6) rfl (decode_encode (.retlw k)) rfl
  · exact decode_formatL_of_dontCare (dc := 0b000011#6) rfl (decode_encode (.retlw k)) rfl
  · exact decode_formatL_of_dontCare (dc := 0b000011#6) rfl (decode_encode (.retlw k)) rfl
  · exact (withGie_getLsbD s.intcon true n).trans (if_neg hn.ne)

/-- Settles O32: TO and PD bit by bit; `clearWdt` is the rest. -/
theorem clrwdtResult : Obligations.ClrwdtResult := by
  refine ⟨decode_encode .clrwdt, fun s => ⟨_, exec_clrwdt s, ?_, ?_, ?_, rfl⟩⟩
  · exact withToPd_getLsbD s.status true true 4
  · exact withToPd_getLsbD s.status true true 3
  · exact fun n => withToPd_getLsbD_other s.status true true

/-- Settles O33: the two cases of R265. -/
theorem sleepResult : Obligations.SleepResult := by
  refine ⟨decode_encode .sleep, fun s => ⟨fun hidle => ?_, exec_sleep_of_wakePending⟩⟩
  refine ⟨_, exec_sleep_of_not_wakePending hidle, ?_, ?_, ?_, rfl⟩
  · exact withToPd_getLsbD s.status true false 4
  · exact withToPd_getLsbD s.status true false 3
  · exact fun n => withToPd_getLsbD_other s.status true false

/-- Settles O34. -/
theorem optionResult : Obligations.OptionResult := ⟨decode_encode .option, exec_option⟩

end Machine

end Sys2Proof
end

section
/-! One step at its boundary (R231): the instruction it runs, what requests a reset, the interrupt it takes, and the wake-up. -/

namespace Sys2Proof.Machine

variable {s t : State} {i : Instr}

/-! ### An instruction runs -/

theorem runInstruction_of_decode (h : decode s.fetch = .ok i) : runInstruction s = afterExec (exec i s) := by
  unfold runInstruction; rw [h]

theorem step_of_decode (hs : s.RunsInstruction) (h : decode s.fetch = .ok i) :
    step s = afterExec (exec i { s with inReset := false, irqPhase := s.phaseDuring }) :=
  (step_runs hs).trans (runInstruction_of_decode h)

/-- Settles O6. -/
theorem stepRunsTheDecodedInstruction : Obligations.StepRunsTheDecodedInstruction := by
  refine fun s i hs hd => ⟨fun t he => ?_, fun r he => ?_⟩
  · rw [step_of_decode hs hd, he]; rfl
  · rw [step_of_decode hs hd, he]; rfl

theorem exec_sleep_completes (s : State) : ∃ t, exec .sleep s = .next t := by
  cases hw : s.wakePending with
  | false => exact ⟨_, exec_sleep_of_not_wakePending hw⟩
  | true => exact ⟨_, exec_sleep_of_wakePending hw⟩

/-- Settles O36: only the skip instructions and the TRIS words can be refused, and the premises rule those cases out. -/
theorem everyInstructionCompletes : Obligations.EveryInstructionCompletes := by
  intro i s hwf hskip
  cases i with
  | decfsz f d => exact (skipOp_next (hskip f d (Or.inl rfl)) decByte).imp fun _ h => h.1
  | incfsz f d => exact (skipOp_next (hskip f d (Or.inr rfl)) incByte).imp fun _ h => h.1
  | trisA => exact ⟨_, execTrisA_admitted hwf⟩
  | trisB => exact ⟨_, execTrisB_admitted hwf⟩
  | sleep => exact exec_sleep_completes s
  | _ => exact ⟨_, rfl⟩

/-! ### Resets -/

theorem resetRequest_of_powerOn (hp : s.pins.powerOn = true) : s.resetRequest = some .por := if_pos hp

theorem resetRequest_of_held (hp : s.pins.powerOn = false) (hm : s.pins.mclrLow = true) (hr : s.inReset = true) :
    s.resetRequest = none := by
  simp [State.resetRequest, hp, hm, hr]

theorem resetRequest_of_mclr_asleep (hp : s.pins.powerOn = false) (hm : s.pins.mclrLow = true) (hr : s.inReset = false)
    (hs : s.sleeping = true) : s.resetRequest = some .mclrSleep := by
  simp [State.resetRequest, hp, hm, hr, hs]

theorem resetRequest_of_mclr_awake (hp : s.pins.powerOn = false) (hm : s.pins.mclrLow = true) (hr : s.inReset = false)
    (hs : s.sleeping = false) (hw : s.wdtTimeout = false) : s.resetRequest = some .mclrRun := by
  simp [State.resetRequest, hp, hm, hr, hs, hw]

theorem resetRequest_of_wdt (hp : s.pins.powerOn = false) (hm : s.pins.mclrLow = false) (hs : s.sleeping = false)
    (hw : s.wdtTimeout = true) : s.resetRequest = some .wdtRun := by
  simp [State.resetRequest, State.wdtResetDue, hp, hm, hs, hw]

theorem resetRequest_of_quiet (hp : s.pins.powerOn = false) (hm : s.pins.mclrLow = false)
    (hw : s.sleeping = true ∨ s.wdtTimeout = false) : s.resetRequest = none := by
  have hdue : s.wdtResetDue = false := by
    unfold State.wdtResetDue
    rcases hw with h | h <;> simp [h]
  simp [State.resetRequest, hp, hm, hdue]

theorem powerOn_of_noReset (h : s.resetRequest = none) : s.pins.powerOn = false := by
  cases hp : s.pins.powerOn with
  | false => rfl
  | true => exact absurd ((resetRequest_of_powerOn hp).symm.trans h) (by simp)

theorem step_of_resetRequest {k : ResetKind} (h : s.resetRequest = some k) : step s = .next (takeReset k s) := by
  unfold step stepOnce; rw [h]

theorem step_of_held (h : s.resetRequest = none) (hm : s.pins.mclrLow = true) : step s = .next (advanceEnv s) := by
  unfold step stepOnce; rw [h]; exact if_pos hm

theorem step_of_noReset (h : s.resetRequest = none) (hm : s.pins.mclrLow = false) :
    step s = runningStep { s with inReset := false } := by
  unfold step stepOnce; rw [h]; exact if_neg (by simp [hm])

/-- Settles O49. -/
theorem resetRequests : Obligations.ResetRequests := fun _ =>
  ⟨fun hp => step_of_resetRequest (resetRequest_of_powerOn hp),
    fun hp hm hr => step_of_held (resetRequest_of_held hp hm hr) hm,
    fun hp hm hr hs => step_of_resetRequest (resetRequest_of_mclr_asleep hp hm hr hs),
    fun hp hm hr hs hw => step_of_resetRequest (resetRequest_of_mclr_awake hp hm hr hs hw),
    fun hp hm hs hw => step_of_resetRequest (resetRequest_of_wdt hp hm hs hw),
    resetRequest_of_quiet⟩

/-! ### Interrupts -/

/-- Settles O42: the entry is `push` and `jump` with GIE cleared. -/
theorem interruptEntryEffect : Obligations.InterruptEntryEffect := by
  refine fun s => ⟨?_, fun n hn => ?_, rfl, rfl, rfl, ?_, fun p hp => ?_, rfl⟩
  · exact withGie_getLsbD s.intcon false 7
  · exact (withGie_getLsbD s.intcon false n).trans (if_neg hn.ne)
  · exact (push_stkAt s s.pc s.sp).trans (if_pos rfl)
  · exact (push_stkAt s s.pc p).trans (if_neg hp)

theorem irqRequest_iff (s : State) : s.irqRequest = true ↔ s.intcon.getLsbD 7 = true ∧
    ((s.intcon.getLsbD 2 = true ∧ s.intcon.getLsbD 5 = true) ∨ (s.intcon.getLsbD 1 = true ∧ s.intcon.getLsbD 4 = true)
      ∨ (s.intcon.getLsbD 0 = true ∧ s.intcon.getLsbD 3 = true)
      ∨ (s.eecon1.getLsbD 4 = true ∧ s.intcon.getLsbD 6 = true)) := by
  simp only [State.irqRequest, State.gie, State.wakePending, Bool.and_eq_true, Bool.or_eq_true, or_assoc]

/-- A request that was put off, or that the run does not put off, is taken (R237). -/
theorem boundaryStep_takes (hq : s.irqRequest = true)
    (hp : s.irqPhase = .delayed ∨ (s.irqPhase = .fresh ∧ s.irqWaits = false)) :
    boundaryStep s = .next (takeInterrupt s) := by
  unfold boundaryStep
  rcases hp with hp | ⟨hp, hw⟩
  · rw [hp]; exact if_pos hq
  · rw [hp]; exact (if_pos hq).trans (if_neg (by simp [hw]))

theorem irqWaits_of_fixed {b : Bool} (h : s.cfg.irqExtra = some b) : s.irqWaits = b := by
  unfold State.irqWaits; rw [h]

/-- A request put off by one instruction is remembered while that instruction runs. -/
theorem phaseDuring_of_putOff (hp : s.irqPhase = .fresh) (hq : s.irqRequest = true) : s.phaseDuring = .delayed := by
  unfold State.phaseDuring; rw [hp]; exact if_pos hq

/-- Settles O43. -/
theorem interruptRecognition : Obligations.InterruptRecognition := by
  refine ⟨irqRequest_iff, fun s hs hq => ⟨fun hp => ?_, fun hp hw => ?_, fun b => irqWaits_of_fixed⟩⟩
  · exact (step_running hs).trans (boundaryStep_takes (s := { s with inReset := false }) hq hp)
  · exact ⟨{ hs with noEntry := Or.inr (Or.inr ⟨hp, hw⟩) }, phaseDuring_of_putOff hp hq⟩

/-! ### Asleep and in the oscillator's start-up -/

/-- While start-up time is left, a step is one unit of it (R349). -/
theorem step_of_ostLeft (h : s.resetRequest = none) (hm : s.pins.mclrLow = false) (ho : 0 < s.ostLeft) :
    step s = .next (ostStep { s with inReset := false }) :=
  (step_of_noReset h hm).trans (if_pos ho)

theorem step_asleep (h : s.resetRequest = none) (hm : s.pins.mclrLow = false) (ho : s.ostLeft = 0)
    (hs : s.sleeping = true) : step s = .next (sleepStep { s with inReset := false }) := by
  have hrun : runningStep { s with inReset := false } = .next (sleepStep { s with inReset := false }) :=
    (if_neg (by simp [ho])).trans (if_pos hs)
  exact (step_of_noReset h hm).trans hrun

theorem sleepStep_of_wakePending (h : s.wakePending = true) : sleepStep s = wakeByRequest s := if_pos h

theorem sleepStep_of_not_wakePending (h : s.wakePending = false) :
    sleepStep s = idleCycle { s with irqPhase := .fresh } := if_neg (by simp [h])

/-- After a wake-up by a request one instruction runs, and the request is taken after it if it still holds (R263). -/
theorem runsInstruction_of_afterWake (h : s.Running) (hp : s.irqPhase = .afterWake) :
    s.RunsInstruction ∧ s.phaseDuring = .delayed := by
  refine ⟨{ h with noEntry := Or.inl hp }, ?_⟩
  unfold State.phaseDuring; rw [hp]

end Sys2Proof.Machine
end

section
/-! The bits of INTCON in one unit of time: INTF and RBIF from the pins' detectors (R290, R292), T0IF from Timer0 (R305); and the
environment's next sample. -/

namespace Sys2Proof.Machine

variable (s : State)

/-! ### Each agent alone -/

/-- Setting the flag of bit `k` where `b` holds. -/
theorem setFlag_getLsbD (ic : Byte) (b : Bool) (k : BitNo) (n : Nat) :
    (if b then ic ||| bitMask k else ic).getLsbD n = (ic.getLsbD n || (b && decide (n = k.toNat))) := by
  cases b with
  | false => simp
  | true => exact setBit_getLsbD ic k n

/-- The edge on RB0/INT sets INTF (bit 1) and nothing else (R292). -/
theorem intPinCycle_intcon_getLsbD (n : Nat) :
    (intPinCycle s).intcon.getLsbD n = (s.intcon.getLsbD n || (s.intPinEdge && decide (n = 1))) :=
  setFlag_getLsbD s.intcon s.intPinEdge 1#3 n

/-- A mismatch sets RBIF (bit 0) and nothing else (R290). -/
theorem rbChangeCycle_intcon_getLsbD (n : Nat) :
    (rbChangeCycle s).intcon.getLsbD n = (s.intcon.getLsbD n || (s.rbMismatch && decide (n = 0))) :=
  setFlag_getLsbD s.intcon s.rbMismatch 0#3 n

/-- TMR0 counts in this cycle (R301, R303). -/
def State.t0Counts : Bool := !s.t0Skip && s.t0Sync.getLsbD 1

theorem timer0Cycle_tmr0_eq : (timer0Cycle s).tmr0 = if s.t0Counts then s.tmr0 + 0x01#8 else s.tmr0 := by
  rw [timer0Cycle_tmr0]; unfold State.t0Counts
  cases s.t0Skip <;> rfl

/-- The step from FFh sets T0IF (bit 2) and nothing else (R305). -/
theorem timer0Cycle_intcon_getLsbD (n : Nat) :
    (timer0Cycle s).intcon.getLsbD n
      = (s.intcon.getLsbD n || (s.t0Counts && decide (s.tmr0 = 0xFF#8) && decide (n = 2))) := by
  rw [timer0Cycle_intcon]
  exact setFlag_getLsbD s.intcon (s.t0Counts && decide (s.tmr0 = 0xFF#8)) 2#3 n

/-! ### A cycle of the whole machine and an idle unit -/

/-- The two detectors, one after the other: each reads what the other leaves alone. -/
theorem detectors_intcon_getLsbD (n : Nat) :
    (rbChangeCycle (intPinCycle s)).intcon.getLsbD n
      = (s.intcon.getLsbD n || (s.intPinEdge && decide (n = 1)) || (s.rbMismatch && decide (n = 0))) := by
  rw [rbChangeCycle_intcon_getLsbD, intPinCycle_intcon_getLsbD]; rfl

theorem tickCycle_intcon_getLsbD (n : Nat) :
    (tickCycle s).intcon.getLsbD n
      = (s.intcon.getLsbD n || (s.intPinEdge && decide (n = 1)) || (s.rbMismatch && decide (n = 0))
        || (s.t0Counts && decide (s.tmr0 = 0xFF#8) && decide (n = 2))) := by
  rw [tickCycle_intcon, timer0Cycle_intcon_getLsbD, detectors_intcon_getLsbD]; rfl

theorem idleCycle_intcon_getLsbD (n : Nat) :
    (idleCycle s).intcon.getLsbD n
      = (s.intcon.getLsbD n || (s.intPinEdge && decide (n = 1)) || (s.rbMismatch && decide (n = 0))) := by
  rw [idleCycle_intcon, detectors_intcon_getLsbD]

/-! ### Timer0's flag -/

/-- TMR0 goes from FFh to 00h exactly where it counts at FFh. -/
theorem overflow_eq_counts (c : Bool) (x : Byte) :
    (decide (x = 0xFF#8) && decide ((if c then x + 0x01#8 else x) = 0x00#8)) = (c && decide (x = 0xFF#8)) := by
  by_cases hx : x = 0xFF#8
  · subst hx; cases c <;> rfl
  · simp [hx]

/-- Settles O54: in a cycle and in a tick TMR0 and T0IF are those of Timer0 alone. -/
theorem timer0OverflowSetsT0if : Obligations.Timer0OverflowSetsT0if := by
  intro s
  have htmr : ∀ t, t = timer0Cycle s ∨ t = tick 1 s → t.tmr0 = if s.t0Counts then s.tmr0 + 0x01#8 else s.tmr0 := by
    rintro t (rfl | rfl)
    · exact timer0Cycle_tmr0_eq s
    · exact (tickCycle_tmr0 s).trans (timer0Cycle_tmr0_eq s)
  have hflag : ∀ t, t = timer0Cycle s ∨ t = tick 1 s →
      t.intcon.getLsbD 2 = (s.intcon.getLsbD 2 || (s.t0Counts && decide (s.tmr0 = 0xFF#8))) := by
    rintro t (rfl | rfl)
    · rw [timer0Cycle_intcon_getLsbD]; simp
    · rw [tick_one, tickCycle_intcon_getLsbD]; simp
  refine ⟨fun t ht => ⟨?_, ?_⟩, fun n hn => ?_, idleCycle_tmr0 s, ?_, rfl, fun n => tick_succ_last s n⟩
  · rw [hflag t ht, htmr t ht, overflow_eq_counts]
  · rw [htmr t ht]; split
    · exact Or.inr rfl
    · exact Or.inl rfl
  · rw [timer0Cycle_intcon_getLsbD]; simp [hn]
  · rw [idleCycle_intcon_getLsbD]; simp

/-! ### The environment's next sample -/

theorem advanceEnv_of_cons {p : PinSample} {q : List PinSample} (h : s.pinQueue = p :: q) :
    advanceEnv s = { s with pins := p, pinQueue := q } := by
  unfold advanceEnv; rw [h]

/-- Where the queue ends the levels stay, without a power-on pulse (assumption log entry 8). -/
theorem advanceEnv_of_nil (h : s.pinQueue = []) :
    advanceEnv s = { s with pins := { s.pins with powerOn := false } } := by
  unfold advanceEnv; rw [h]

/-- What the environment presents next depends on its sample and its queue alone. -/
theorem advanceEnv_congr {a b : State} (hp : a.pins = b.pins) (hq : a.pinQueue = b.pinQueue) :
    (advanceEnv a).pins = (advanceEnv b).pins ∧ (advanceEnv a).pinQueue = (advanceEnv b).pinQueue := by
  cases h : b.pinQueue with
  | nil => rw [advanceEnv_of_nil a (hq.trans h), advanceEnv_of_nil b h, hp]; exact ⟨rfl, hq⟩
  | cons p q => rw [advanceEnv_of_cons a (hq.trans h), advanceEnv_of_cons b h]; exact ⟨rfl, rfl⟩

theorem tickCycle_env :
    (tickCycle s).pins = (advanceEnv s).pins ∧ (tickCycle s).pinQueue = (advanceEnv s).pinQueue := by
  have ew := wdtCycle_frame s.beforeWdt
  have ee := eeTimerCycle_frame s.beforeEe
  rw [tickCycle_eq, endCycle_eq]
  refine advanceEnv_congr ?_ ?_
  · rw [lessWdt_pins ew, beforeWdt_eq, lessEeWrite_pins ee, lessTimer0_pins (beforeEe_frame s)]
  · rw [lessWdt_pinQueue ew, beforeWdt_eq, lessEeWrite_pinQueue ee, lessTimer0_pinQueue (beforeEe_frame s)]

theorem idleCycle_env :
    (idleCycle s).pins = (advanceEnv s).pins ∧ (idleCycle s).pinQueue = (advanceEnv s).pinQueue := by
  have ew := wdtCycle_frame s.idleWdt
  rw [idleCycle_eq, endCycle_eq]
  refine advanceEnv_congr ?_ ?_
  · rw [lessWdt_pins ew, lessEeWrite_pins (idleWdt_frame s)]; rfl
  · rw [lessWdt_pinQueue ew, lessEeWrite_pinQueue (idleWdt_frame s)]; rfl

/-! ### The pins' detectors -/

theorem intPinEdge_of_rising (h : s.optionReg.getLsbD 6 = true) : s.intPinEdge = (!s.intPrev && s.pinB 0) := if_pos h

theorem intPinEdge_of_falling (h : s.optionReg.getLsbD 6 = false) : s.intPinEdge = (s.intPrev && !s.pinB 0) :=
  if_neg (Bool.eq_false_iff.mp h)

/-- The four comparators as one condition on the pin's number (R290). -/
theorem rbMismatch_iff : s.rbMismatch = true ↔
    ∃ n, n < 4 ∧ s.trisb.getLsbD (n + 4) = true ∧ s.pinB (n + 4) ≠ s.rbold.getLsbD n := by
  have hdiff : ∀ n, s.rbDiffers (n + 4) = true ↔
      s.trisb.getLsbD (n + 4) = true ∧ s.pinB (n + 4) ≠ s.rbold.getLsbD n := fun n => by
    simp [State.rbDiffers]
  simp only [← hdiff]
  constructor
  · intro h
    simp only [State.rbMismatch, Bool.or_eq_true] at h
    rcases h with ((h | h) | h) | h
    · exact ⟨0, by decide, h⟩
    · exact ⟨1, by decide, h⟩
    · exact ⟨2, by decide, h⟩
    · exact ⟨3, by decide, h⟩
  · rintro ⟨n, hn, h⟩
    unfold State.rbMismatch
    interval_cases n <;> simp [h]

/-- Settles O57: INTF, RBIF and the higher bits of INTCON are the same function of the state in a detector's cycle, in a tick and in
an idle unit. -/
theorem interruptPinDetectors : Obligations.InterruptPinDetectors := by
  intro s
  have hint : ∀ t, t = intPinCycle s ∨ t = tick 1 s ∨ t = idleCycle s →
      t.intcon.getLsbD 1 = (s.intcon.getLsbD 1 || s.intPinEdge)
      ∧ t.intPrev = s.pinB 0 ∧ (∀ n, 3 ≤ n → t.intcon.getLsbD n = s.intcon.getLsbD n) ∧ t.rbold = s.rbold := by
    rintro t (rfl | rfl | rfl)
    · refine ⟨?_, rfl, fun n hn => ?_, rfl⟩
      · rw [intPinCycle_intcon_getLsbD]; simp
      · rw [intPinCycle_intcon_getLsbD]; simp [show n ≠ 1 by omega]
    · refine ⟨?_, tickCycle_intPrev s, fun n hn => ?_, lessTick_rbold (tickCycle_frame s)⟩
      · rw [tick_one, tickCycle_intcon_getLsbD]; simp
      · rw [tick_one, tickCycle_intcon_getLsbD]; simp [show n ≠ 0 ∧ n ≠ 1 ∧ n ≠ 2 by omega]
    · refine ⟨?_, idleCycle_intPrev s, fun n hn => ?_, lessTick_rbold (idleCycle_frame s)⟩
      · rw [idleCycle_intcon_getLsbD]; simp
      · rw [idleCycle_intcon_getLsbD]; simp [show n ≠ 0 ∧ n ≠ 1 by omega]
  have hrb : ∀ t, t = rbChangeCycle s ∨ t = tick 1 s ∨ t = idleCycle s →
      t.intcon.getLsbD 0 = (s.intcon.getLsbD 0 || s.rbMismatch) := by
    rintro t (rfl | rfl | rfl)
    · rw [rbChangeCycle_intcon_getLsbD]; simp
    · rw [tick_one, tickCycle_intcon_getLsbD]; simp
    · rw [idleCycle_intcon_getLsbD]; simp
  refine ⟨fun t ht => ?_, fun t ht => ?_, fun n hn => ?_, rfl, fun n hn => ?_, rfl, fun t ht => ?_⟩
  · obtain ⟨hflag, hrest⟩ := hint t ht
    exact ⟨fun h => by rw [hflag, intPinEdge_of_rising s h], fun h => by rw [hflag, intPinEdge_of_falling s h], hrest⟩
  · rw [hrb t ht, Bool.or_eq_true, rbMismatch_iff]
  · rw [intPinCycle_intcon_getLsbD]; simp [hn]
  · rw [rbChangeCycle_intcon_getLsbD]; simp [hn]
  · obtain ⟨hp, hq⟩ : t.pins = (advanceEnv s).pins ∧ t.pinQueue = (advanceEnv s).pinQueue := by
      rcases ht with rfl | rfl
      · exact tickCycle_env s
      · exact idleCycle_env s
    rw [hp, hq]
    refine ⟨fun p q h => ?_, fun h => ?_⟩
    · rw [advanceEnv_of_cons s h]; exact ⟨rfl, rfl⟩
    · rw [advanceEnv_of_nil s h]; exact ⟨rfl, h⟩

end Sys2Proof.Machine
end

section
/-! The device asleep and in the oscillator's start-up (R261 to R263, R349): what one idle unit leaves as it was, and the two
wake-ups. -/

namespace Sys2Proof.Machine

variable {s t : State}

/-! ### Single bits of STATUS and EECON1 -/

/-- Awake, the Watchdog leaves STATUS; asleep, a time-out clears TO and nothing else (R262). -/
theorem wdtCycle_status_getLsbD (s : State) {n : Nat} (hn : n ≠ 4) :
    (wdtCycle s).status.getLsbD n = s.status.getLsbD n := by
  rw [wdtCycle_status]
  split
  · rw [withToPd_getLsbD, if_neg hn]
    by_cases h3 : n = 3
    · rw [if_pos h3, h3]
    · rw [if_neg h3]
  · rfl

/-- EECON1 after a write has ended (R317), bit by bit: WR (bit 1) is cleared and EEIF (bit 4) set. -/
theorem eecon1_ended_getLsbD (e : BitVec 5) (n : Nat) :
    ((e &&& 0b11101#5) ||| 0b10000#5).getLsbD n = (decide (n = 4) || (decide (n ≠ 1) && e.getLsbD n)) := by
  rw [BitVec.getLsbD_or, BitVec.getLsbD_and]
  rcases n with _ | _ | _ | _ | _ | n
  case succ.succ.succ.succ.succ => simp
  all_goals simp

/-- Of EECON1 the write timer changes EEIF and WR at most. -/
theorem eeTimerCycle_eecon1_getLsbD (s : State) {n : Nat} (h1 : n ≠ 1) (h4 : n ≠ 4) :
    (eeTimerCycle s).eecon1.getLsbD n = s.eecon1.getLsbD n := by
  rw [eeTimerCycle_eecon1]
  split
  · rw [eecon1_ended_getLsbD]; simp [h1, h4]
  · rfl

/-- Where the write is as far as it was, the write timer has left EECON1 and the cells. -/
theorem eeTimerCycle_of_busy_same (h : (eeTimerCycle s).eeBusy = s.eeBusy) :
    (eeTimerCycle s).eecon1 = s.eecon1 ∧ (eeTimerCycle s).eeprom = s.eeprom := by
  have hends : s.eeEnds = false := by
    cases he : s.eeEnds with
    | false => rfl
    | true =>
      rw [eeTimerCycle_eeBusy, he] at h
      simp only [State.eeEnds, Bool.and_eq_true] at he
      exact absurd (h.trans he.1) (by simp)
  rw [eeTimerCycle_eecon1, eeTimerCycle_eeprom, hends]
  exact ⟨rfl, rfl⟩

/-! ### One idle unit -/

/-- From `s` to `t` the core's registers, the ports, the pointers and the EEPROM's address and data stay: the registers that no
agent beside the CPU can change (R300). -/
structure State.CoreKept (s t : State) : Prop where
  w : t.w = s.w
  pc : t.pc = s.pc
  stk : t.stk = s.stk
  sp : t.sp = s.sp
  ram : t.ram = s.ram
  fsr : t.fsr = s.fsr
  pclath : t.pclath = s.pclath
  optionReg : t.optionReg = s.optionReg
  lata : t.lata = s.lata
  trisa : t.trisa = s.trisa
  latb : t.latb = s.latb
  trisb : t.trisb = s.trisb
  eedata : t.eedata = s.eedata
  eeadr : t.eeadr = s.eeadr
  eeSeq : t.eeSeq = s.eeSeq
  eeWAddr : t.eeWAddr = s.eeWAddr
  eeWData : t.eeWData = s.eeWData
  rbold : t.rbold = s.rbold
  irqPhase : t.irqPhase = s.irqPhase

theorem coreKept_of_lessTick (h : t.lessTick = s.lessTick) : s.CoreKept t :=
  ⟨lessTick_w h, lessTick_pc h, lessTick_stk h, lessTick_sp h, lessTick_ram h, lessTick_fsr h, lessTick_pclath h,
    lessTick_optionReg h, lessTick_lata h, lessTick_trisa h, lessTick_latb h, lessTick_trisb h, lessTick_eedata h,
    lessTick_eeadr h, lessTick_eeSeq h, lessTick_eeWAddr h, lessTick_eeWData h, lessTick_rbold h, lessTick_irqPhase h⟩

theorem idleCycle_coreKept (s : State) : s.CoreKept (idleCycle s) := coreKept_of_lessTick (idleCycle_frame s)

/-- For PSA = 0 the prescaler is Timer0's, and stands still with it. -/
theorem idleCycle_presc_of_psa (h : s.psa = false) : (idleCycle s).presc = s.presc := by
  rw [idleCycle_presc, wdtCycle_presc, h, Bool.and_false]; rfl

theorem idleCycle_status_of_awake (h : s.sleeping = false) : (idleCycle s).status = s.status := by
  rw [idleCycle_status, wdtCycle_status, h, Bool.and_false]; rfl

theorem idleCycle_ostLeft_of_awake (h : s.sleeping = false) : (idleCycle s).ostLeft = s.ostLeft := by
  rw [idleCycle_ostLeft, wdtCycle_ostLeft, h, Bool.and_false]; rfl

theorem idleCycle_sleeping_of_awake (h : s.sleeping = false) : (idleCycle s).sleeping = false := by
  rw [idleCycle_sleeping, wdtCycle_sleeping, h, Bool.false_and]

/-! ### The wake-ups -/

/-- Settles O45. -/
theorem watchdogTimeOut : Obligations.WatchdogTimeOut := by
  refine fun s => ⟨fun hs => ⟨_, if_pos hs, ?_, fun n hn => ?_, rfl⟩, fun hs => if_neg (by simp [hs])⟩
  · exact withToPd_getLsbD s.status false (s.status.getLsbD 3) 4
  · refine (withToPd_getLsbD s.status false (s.status.getLsbD 3) n).trans ((if_neg hn).trans ?_)
    split
    · next h3 => rw [h3]
    · rfl

/-- A flag that stands with its enable wakes the device in a step of its own (R263). -/
theorem step_wakes (h : s.resetRequest = none) (hm : s.pins.mclrLow = false) (ho : s.ostLeft = 0)
    (hs : s.sleeping = true) (hw : s.wakePending = true) :
    step s = .next (wakeByRequest { s with inReset := false }) := by
  rw [step_asleep h hm ho hs]
  exact congrArg _ (sleepStep_of_wakePending (s := { s with inReset := false }) hw)

/-- Asleep with no request, a step is one idle unit (R261). -/
theorem step_sleeps_on (h : s.resetRequest = none) (hm : s.pins.mclrLow = false) (ho : s.ostLeft = 0)
    (hs : s.sleeping = true) (hw : s.wakePending = false) :
    step s = .next (idleCycle { s with inReset := false, irqPhase := .fresh }) := by
  rw [step_asleep h hm ho hs]
  exact congrArg _ (sleepStep_of_not_wakePending (s := { s with inReset := false }) hw)

/-- Woken with no start-up time to wait for, the device runs. -/
theorem wakeByRequest_running (hp : s.pins.powerOn = false) (hm : s.pins.mclrLow = false) (ho : s.cfg.ostCycles = 0)
    (hw : s.wdtTimeout = false) : (wakeByRequest s).Running where
  noReset := resetRequest_of_quiet (s := wakeByRequest s) hp hm (Or.inr hw)
  mclrHigh := hm
  awake := rfl
  started := ho

/-- Settles O44: the wake-up, the units of the start-up time, and the instruction after it. -/
theorem requestWakesTheDevice : Obligations.RequestWakesTheDevice := by
  refine ⟨fun s hr hm hs ho hw => ?_, fun s hr hm ho hs => ?_, fun s hr hm ho hs => ?_⟩
  · have hstep := step_wakes hr hm ho hs hw
    refine ⟨hstep, fun hc hwt t ht => ?_⟩
    obtain rfl : wakeByRequest { s with inReset := false } = t := Host.Outcome.next.inj (hstep.symm.trans ht)
    have hp := powerOn_of_noReset hr
    exact runsInstruction_of_afterWake (wakeByRequest_running (s := { s with inReset := false }) hp hm hc hwt) rfl
  · have hkept := idleCycle_coreKept { s with inReset := false, ostLeft := s.ostLeft - 1 }
    have hpresc := idleCycle_presc_of_psa (s := { s with inReset := false, ostLeft := s.ostLeft - 1 })
    exact ⟨_, step_of_ostLeft hr hm ho, rfl, idleCycle_ostLeft_of_awake hs, idleCycle_sleeping_of_awake hs, hkept.irqPhase,
      hkept.pc, hkept.w, hkept.stk, hkept.sp, hkept.ram, idleCycle_status_of_awake hs, idleCycle_tmr0 _, idleCycle_t0Sync _,
      hpresc, idleCycle_t0Prev _⟩
  · exact runsInstruction_of_afterWake ⟨hr, hm, hs, ho⟩

/-- Settles O46: the wake-up changes no register, and an idle unit those of the detectors, the write timer and the Watchdog. -/
theorem sleepKeepsTheRegisters : Obligations.SleepKeepsTheRegisters := by
  intro s hr hm hs ho
  refine ⟨step_sleeps_on hr hm ho hs, fun t ht => ?_⟩
  cases hw : s.wakePending with
  | true =>
    obtain rfl := Host.Outcome.next.inj ((step_wakes hr hm ho hs hw).symm.trans ht)
    exact ⟨rfl, rfl, rfl, rfl, rfl, rfl, rfl, rfl, rfl, rfl, rfl, rfl, rfl, rfl, rfl, rfl, fun _ => rfl, rfl, rfl, rfl, rfl,
      rfl, fun _ _ _ => rfl, fun _ => ⟨rfl, rfl⟩, rfl, fun _ _ _ => rfl, fun _ _ => rfl⟩
  | false =>
    obtain rfl := Host.Outcome.next.inj ((step_sleeps_on hr hm ho hs hw).symm.trans ht)
    have hkept := idleCycle_coreKept { s with inReset := false, irqPhase := .fresh }
    have hpresc := idleCycle_presc_of_psa (s := { s with inReset := false, irqPhase := .fresh })
    refine ⟨hkept.w, hkept.pc, hkept.stk, hkept.sp, hkept.ram, hkept.fsr, hkept.pclath, hkept.optionReg, hkept.lata,
      hkept.trisa, hkept.latb, hkept.trisb, idleCycle_tmr0 _, idleCycle_t0Sync _, idleCycle_t0Skip _, idleCycle_t0Prev _,
      hpresc, hkept.eedata, hkept.eeadr, hkept.eeSeq, hkept.eeWAddr, hkept.eeWData, fun n h1 h4 => ?_,
      fun hb => ?_, hkept.rbold, fun n h0 h1 => ?_, fun n hn => ?_⟩
    · rw [idleCycle_eecon1]; exact eeTimerCycle_eecon1_getLsbD _ h1 h4
    · rw [idleCycle_eeBusy] at hb
      rw [idleCycle_eecon1, idleCycle_eeprom]
      exact eeTimerCycle_of_busy_same hb
    · rw [idleCycle_intcon_getLsbD]; simp [h0, h1]
    · rw [idleCycle_status]; exact wdtCycle_status_getLsbD _ hn

end Sys2Proof.Machine
end

section
/-! The Watchdog over many units of time (R250, R252): with WDTE = 0 it never times out, and with a fixed raw period it does so
after exactly as many units as the postscaler's ratio times the period. -/

namespace Sys2Proof.Machine

variable {s t u : State}

/-! ### Induction over units of time -/

/-- What holds at first, and is handed on by each unit of time, holds after any number of them. -/
theorem times_invariant {g : State → State} {P : Nat → State → Prop} (h0 : P 0 s)
    (hstep : ∀ n t, P n t → P (n + 1) (g t)) (n : Nat) : P n (times g n s) := by
  induction n with
  | zero => exact h0
  | succ n ih => rw [times_succ_last]; exact hstep n _ ih

/-! ### A disabled Watchdog -/

theorem wdtFires_of_disabled (h : s.cfg.wdte = false) : s.wdtFires = false := by
  unfold State.wdtFires; rw [h, Bool.and_false, Bool.false_and]

theorem wdtCycle_wdtTimeout_of_disabled (h : s.cfg.wdte = false) : (wdtCycle s).wdtTimeout = s.wdtTimeout := by
  rw [wdtCycle_wdtTimeout, wdtFires_of_disabled h, Bool.false_and, Bool.or_false]

theorem idleCycle_wdtTimeout_of_disabled (h : s.cfg.wdte = false) : (idleCycle s).wdtTimeout = s.wdtTimeout :=
  (idleCycle_wdtTimeout s).trans (wdtCycle_wdtTimeout_of_disabled h)

theorem tick_wdtTimeout_of_disabled (h : s.cfg.wdte = false) (n : Nat) : (tick n s).wdtTimeout = s.wdtTimeout := by
  induction n generalizing s with
  | zero => rfl
  | succ n ih =>
    have hcfg := lessTick_cfg (tickCycle_frame s)
    rw [tick_succ, ih (by rw [hcfg]; exact h), tickCycle_wdtTimeout, wdtCycle_wdtTimeout_of_disabled h]

theorem advanceEnv_wdtTimeout (s : State) : (advanceEnv s).wdtTimeout = s.wdtTimeout := by rw [advanceEnv_eq]

theorem advanceEnv_sleeping (s : State) : (advanceEnv s).sleeping = s.sleeping := by rw [advanceEnv_eq]

/-- A reset takes back a time-out that waits (R342). -/
theorem takeReset_wdtTimeout (k : ResetKind) (s : State) : (takeReset k s).wdtTimeout = false := by
  cases k with
  | wdtRun => rfl
  | por => exact advanceEnv_wdtTimeout _
  | mclrRun => exact advanceEnv_wdtTimeout _
  | mclrSleep => exact advanceEnv_wdtTimeout _

/-- No step of a device whose Watchdog is off makes a Watchdog reset due (R250). -/
theorem step_wdtTimeout_of_disabled (h : s.cfg.wdte = false) (hw : s.wdtTimeout = false) (ht : step s = .next t) :
    t.wdtTimeout = false := by
  rcases step_cases ht with ⟨k, _, rfl⟩ | ⟨_, _, rfl⟩ | ⟨_, _, hcase⟩
  · exact takeReset_wdtTimeout k s
  · exact (advanceEnv_wdtTimeout s).trans hw
  · rcases hcase with ⟨_, rfl⟩ | ⟨_, _, _, rfl⟩ | ⟨_, _, _, rfl⟩ | ⟨_, _, _, rfl⟩ | ⟨_, _, ph, i, u, _, he, rfl⟩
    · exact (idleCycle_wdtTimeout_of_disabled (s := { s with inReset := false, ostLeft := s.ostLeft - 1 }) h).trans hw
    · exact hw
    · exact (idleCycle_wdtTimeout_of_disabled (s := { s with inReset := false, irqPhase := .fresh }) h).trans hw
    · exact (tick_wdtTimeout_of_disabled
        (s := interruptEntry { s with inReset := false, irqPhase := .fresh }) h 2).trans hw
    · have hcfg := lessExec_cfg (exec_frame he)
      have hwu := lessExec_wdtTimeout (exec_frame he)
      rw [tick_wdtTimeout_of_disabled (by rw [hcfg]; exact h), hwu]
      exact hw

/-- No step wakes a device whose Watchdog is off, but for a request (R250, R261). -/
theorem step_sleeping_of_disabled (h : s.cfg.wdte = false) (hr : s.resetRequest = none) (hs : s.sleeping = true)
    (hw : s.wakePending = false) (ho : s.ostLeft = 0) (ht : step s = .next t) : t.sleeping = true := by
  cases hm : s.pins.mclrLow with
  | true =>
    obtain rfl := Host.Outcome.next.inj ((step_of_held hr hm).symm.trans ht)
    exact (advanceEnv_sleeping s).trans hs
  | false =>
    obtain rfl := Host.Outcome.next.inj ((step_sleeps_on hr hm ho hs hw).symm.trans ht)
    have hf := wdtFires_of_disabled (s := { s with inReset := false, irqPhase := .fresh }) h
    rw [idleCycle_sleeping, wdtCycle_sleeping, hf, Bool.not_false, Bool.and_true]
    exact hs

/-- Settles O48. -/
theorem disabledWatchdogNeverTimesOut : Obligations.DisabledWatchdogNeverTimesOut := fun _ _ h ht =>
  ⟨fun hw => step_wdtTimeout_of_disabled h hw ht, fun hr hs hw ho => step_sleeping_of_disabled h hr hs hw ho ht⟩

/-! ### One more unit, in periods and units of the next period -/

/-- A unit that ends a period is a multiple of it; any other only adds to what is left. -/
theorem succ_period_cases {p : Nat} (hp : 0 < p) (n : Nat) :
    (p ≤ n % p + 1 ∧ n + 1 = (n / p + 1) * p)
    ∨ (n % p + 1 < p ∧ n + 1 = n % p + 1 + n / p * p) := by
  have hdiv := Nat.mod_add_div' n p
  have hlt := Nat.mod_lt n hp
  by_cases hend : p ≤ n % p + 1
  · exact Or.inl ⟨hend, by rw [Nat.add_one_mul]; omega⟩
  · exact Or.inr ⟨by omega, by omega⟩

theorem succ_mod_period {p : Nat} (hp : 0 < p) (n : Nat) :
    (n + 1) % p = if p ≤ n % p + 1 then 0 else n % p + 1 := by
  rcases succ_period_cases hp n with ⟨hend, e⟩ | ⟨hgo, e⟩
  · rw [if_pos hend, e, Nat.mul_mod_left]
  · rw [if_neg (by omega), e, Nat.add_mul_mod_self_right, Nat.mod_eq_of_lt hgo]

theorem succ_div_period {p : Nat} (hp : 0 < p) (n : Nat) :
    (n + 1) / p = if p ≤ n % p + 1 then n / p + 1 else n / p := by
  rcases succ_period_cases hp n with ⟨hend, e⟩ | ⟨hgo, e⟩
  · rw [if_pos hend, e, Nat.mul_div_cancel _ hp]
  · rw [if_neg (by omega), e, Nat.add_mul_div_right _ _ hp, Nat.div_eq_of_lt hgo, Nat.zero_add]

/-- The last of `m` periods ends with the unit after `n` exactly where that unit ends a period and `m - 1` have ended before. -/
theorem succ_eq_mul_period_iff {p : Nat} (hp : 0 < p) (m n : Nat) :
    n + 1 = m * p ↔ p ≤ n % p + 1 ∧ n / p + 1 = m := by
  rcases succ_period_cases hp n with ⟨hend, e⟩ | ⟨hgo, e⟩
  · rw [e, Nat.mul_left_inj hp.ne']
    exact (and_iff_right hend).symm
  · refine ⟨fun hm => ?_, fun hm => absurd hm.1 (by omega)⟩
    have hzero : (n + 1) % p = 0 := by rw [hm, Nat.mul_mod_left]
    rw [succ_mod_period hp, if_neg (by omega)] at hzero
    omega

/-- Below a ratio, the next count is a multiple of it only where it reaches it. -/
theorem succ_mod_eq_zero_iff {a r : Nat} (h : a < r) : (a + 1) % r = 0 ↔ a + 1 = r := by
  rcases Nat.eq_or_lt_of_le h with e | hlt
  · rw [← Nat.succ_eq_add_one, e, Nat.mod_self]; simp
  · rw [Nat.mod_eq_of_lt hlt]; omega

/-! ### A Watchdog with a fixed period -/

/-- The postscaler's ratio N: 2^PS for PSA = 1, none for PSA = 0 (R252). -/
def State.wdtRatio (s : State) : Nat := if s.psa then 2 ^ s.ps else 1

/-- The Watchdog is on and its raw period is `period` units, whatever is drawn (R252). -/
structure State.WdtFixed (s : State) (period : Nat) : Prop where
  wdte : s.cfg.wdte = true
  min : s.cfg.wdtMin = period
  max : s.cfg.wdtMax = period
  pos : 0 < period

/-- In the unit of time from `s` to `t` the Watchdog did what it does alone, and nothing else touched what it reads. -/
structure State.WdtUnit (s t : State) : Prop where
  cnt : t.wdtCnt = (wdtCycle s).wdtCnt
  presc : s.psa = true → t.presc = (wdtCycle s).presc
  timeout : t.wdtTimeout = (wdtCycle s).wdtTimeout
  sleeping : t.sleeping = (wdtCycle s).sleeping
  status : t.status = (wdtCycle s).status
  optionReg : t.optionReg = s.optionReg
  cfg : t.cfg = s.cfg

theorem wdtCycle_wdtUnit (s : State) : s.WdtUnit (wdtCycle s) :=
  ⟨rfl, fun _ => rfl, rfl, rfl, rfl, lessWdt_optionReg (wdtCycle_frame s), lessWdt_cfg (wdtCycle_frame s)⟩

theorem tickCycle_wdtUnit (s : State) : s.WdtUnit (tickCycle s) where
  cnt := tickCycle_wdtCnt s
  presc := fun h => by rw [tickCycle_presc, if_pos h]
  timeout := tickCycle_wdtTimeout s
  sleeping := tickCycle_sleeping s
  status := tickCycle_status s
  optionReg := lessTick_optionReg (tickCycle_frame s)
  cfg := lessTick_cfg (tickCycle_frame s)

theorem idleCycle_wdtUnit (s : State) : s.WdtUnit (idleCycle s) where
  cnt := idleCycle_wdtCnt s
  presc := fun _ => idleCycle_presc s
  timeout := idleCycle_wdtTimeout s
  sleeping := idleCycle_sleeping s
  status := idleCycle_status s
  optionReg := lessTick_optionReg (idleCycle_frame s)
  cfg := lessTick_cfg (idleCycle_frame s)

/-- `t` is `n` units of time after `s`, with a raw period of `period` and no time-out since: the count is what is left of the
last period, and the postscaler holds the periods that have ended. -/
structure State.WdtRun (s : State) (period n : Nat) (t : State) : Prop where
  cnt : t.wdtCnt = n % period
  presc : s.psa = true → t.presc.toNat = n / period
  quiet : t.wdtTimeout = s.wdtTimeout
  sleeping : t.sleeping = s.sleeping
  status : t.status = s.status
  optionReg : t.optionReg = s.optionReg
  cfg : t.cfg = s.cfg

theorem wdtRun_zero {p : Nat} (hc : s.wdtCnt = 0) (hz : s.psa = true → s.presc = 0x00#8) : s.WdtRun p 0 s where
  cnt := by rw [hc, Nat.zero_mod]
  presc := fun h => by rw [hz h, Nat.zero_div]; rfl
  quiet := rfl
  sleeping := rfl
  status := rfl
  optionReg := rfl
  cfg := rfl

variable {p n : Nat}

theorem State.WdtRun.psa (h : s.WdtRun p n t) : t.psa = s.psa := by unfold State.psa; rw [h.optionReg]

theorem State.WdtRun.ps (h : s.WdtRun p n t) : t.ps = s.ps := by unfold State.ps; rw [h.optionReg]

/-- A raw pulse comes at the end of each period. -/
theorem State.WdtRun.wdtRaw (h : s.WdtRun p n t) (hf : s.WdtFixed p) : t.wdtRaw = decide (p ≤ n % p + 1) := by
  unfold State.wdtRaw
  rw [h.cfg, hf.min, hf.max, due_same, h.cnt]

/-- Before the time-out the postscaler has room for one more period. -/
theorem State.WdtRun.presc_succ (h : s.WdtRun p n t) (hf : s.WdtFixed p) (hn : n < s.wdtRatio * p)
    (hp : s.psa = true) : n / p < 2 ^ s.ps ∧ (t.presc + 0x01#8).toNat = n / p + 1 := by
  have hlt : n / p < 2 ^ s.ps := by
    rw [State.wdtRatio, if_pos hp] at hn
    exact (Nat.div_lt_iff_lt_mul hf.pos).mpr hn
  have hps : 2 ^ s.ps ≤ 2 ^ 7 := Nat.pow_le_pow_right (by decide) (Nat.le_of_lt_succ (BitVec.isLt _))
  refine ⟨hlt, ?_⟩
  rw [BitVec.toNat_add, h.presc hp]
  exact Nat.mod_eq_of_lt (by simp; omega)

/-- The time-out comes with the last unit of the last period that the postscaler counts. -/
theorem State.WdtRun.wdtFires (h : s.WdtRun p n t) (hf : s.WdtFixed p) (hn : n < s.wdtRatio * p) :
    t.wdtFires = decide (n + 1 = s.wdtRatio * p) := by
  have hpost : (!s.psa || decide ((t.presc + 0x01#8).toNat % 2 ^ s.ps = 0)) = decide (n / p + 1 = s.wdtRatio) := by
    cases hp : s.psa with
    | false =>
      rw [State.wdtRatio, hp] at hn ⊢
      simp [Nat.div_eq_of_lt (show n < p by simpa using hn)]
    | true =>
      obtain ⟨hlt, hnext⟩ := h.presc_succ hf hn hp
      rw [State.wdtRatio, if_pos hp, hnext, Bool.not_true, Bool.false_or, decide_eq_decide]
      exact succ_mod_eq_zero_iff hlt
  unfold State.wdtFires
  rw [h.wdtRaw hf, h.cfg, hf.wdte, h.psa, h.ps, hpost, Bool.and_true, ← Bool.decide_and, decide_eq_decide]
  exact (succ_eq_mul_period_iff hf.pos _ _).symm

/-- Before the time-out, a unit of time more is one unit more of the run. -/
theorem State.WdtRun.succ (h : s.WdtRun p n t) (hf : s.WdtFixed p) (hu : t.WdtUnit u) (hn : n + 1 < s.wdtRatio * p) :
    s.WdtRun p (n + 1) u := by
  have hfires : t.wdtFires = false := (h.wdtFires hf (by omega)).trans (decide_eq_false (by omega))
  constructor
  case cnt =>
    rw [hu.cnt, wdtCycle_wdtCnt, h.wdtRaw hf, h.cnt, succ_mod_period hf.pos]
    simp only [decide_eq_true_eq]
  case presc =>
    intro hp
    have hpt : t.psa = true := h.psa.trans hp
    rw [hu.presc hpt, wdtCycle_presc, h.wdtRaw hf, h.cfg, hf.wdte, hpt, Bool.and_true, Bool.and_true,
      succ_div_period hf.pos]
    simp only [decide_eq_true_eq]
    split
    · exact (h.presc_succ hf (by omega) hp).2
    · exact h.presc hp
  case quiet => rw [hu.timeout, wdtCycle_wdtTimeout, hfires, h.quiet, Bool.false_and, Bool.or_false]
  case sleeping => rw [hu.sleeping, wdtCycle_sleeping, hfires, h.sleeping, Bool.not_false, Bool.and_true]
  case status => rw [hu.status, wdtCycle_status, hfires, h.status, Bool.false_and]; rfl
  case optionReg => exact hu.optionReg.trans h.optionReg
  case cfg => exact hu.cfg.trans h.cfg

section
variable {g : State → State} (hg : ∀ s : State, s.WdtUnit (g s)) (hf : s.WdtFixed p) (h0 : s.WdtRun p 0 s)
include hg hf h0

/-- Before N periods have passed there has been no time-out. -/
theorem times_wdtRun (n : Nat) : n < s.wdtRatio * p → s.WdtRun p n (times g n s) :=
  times_invariant (P := fun n t => n < s.wdtRatio * p → s.WdtRun p n t) (fun _ => h0)
    (fun n t ih hn => (ih (by omega)).succ hf (hg t) hn) n

/-- The unit that completes N periods is the first with a time-out. -/
theorem times_wdtRun_fires :
    ∃ t, s.WdtRun p (s.wdtRatio * p - 1) t ∧ t.wdtFires = true ∧ t.WdtUnit (times g (s.wdtRatio * p) s) := by
  have hpos : 0 < s.wdtRatio * p := Nat.mul_pos (by unfold State.wdtRatio; split <;> simp) hf.pos
  obtain ⟨m, hm⟩ : ∃ m, s.wdtRatio * p = m + 1 := ⟨s.wdtRatio * p - 1, by omega⟩
  have hrun := times_wdtRun hg hf h0 m (by omega)
  refine ⟨times g m s, ?_, (hrun.wdtFires hf (by omega)).trans (decide_eq_true hm.symm), ?_⟩
  · rw [hm]; exact hrun
  · rw [hm, times_succ_last]; exact hg _

end

/-- Awake, the time-out makes a reset due (R253). -/
theorem wdtUnit_fires_awake (hu : t.WdtUnit u) (hf : t.wdtFires = true) (hs : t.sleeping = false) :
    u.wdtTimeout = true := by
  rw [hu.timeout, wdtCycle_wdtTimeout, hf, hs]; simp

/-- Asleep, the time-out wakes the device with TO cleared (R262). -/
theorem wdtUnit_fires_asleep (hu : t.WdtUnit u) (hf : t.wdtFires = true) (hs : t.sleeping = true) :
    u.sleeping = false ∧ u.timeOut = false ∧ ∀ k, k ≠ 4 → u.status.getLsbD k = t.status.getLsbD k := by
  refine ⟨?_, ?_, fun k hk => ?_⟩
  · rw [hu.sleeping, wdtCycle_sleeping, hf, Bool.not_true, Bool.and_false]
  · unfold State.timeOut
    rw [hu.status, wdtCycle_status, hf, hs]
    exact withToPd_getLsbD t.status false (t.status.getLsbD 3) 4
  · rw [hu.status]; exact wdtCycle_status_getLsbD t hk

/-- Settles O47: the Watchdog alone, a tick and an idle unit are alike to the Watchdog. -/
theorem watchdogPeriod : Obligations.WatchdogPeriod := by
  intro s period n hwdte hmin hmax hpos hcnt hquiet hpresc
  have hf : s.WdtFixed period := ⟨hwdte, hmin, hmax, hpos⟩
  have h0 : s.WdtRun period 0 s := wdtRun_zero hcnt hpresc
  refine ⟨fun hs t ht => ?_, fun hs t ht => ?_⟩
  · obtain ⟨g, hg, rfl⟩ : ∃ g, (∀ s : State, s.WdtUnit (g s)) ∧ t = times g n s := by
      rcases ht with rfl | rfl | rfl
      · exact ⟨wdtCycle, wdtCycle_wdtUnit, rfl⟩
      · exact ⟨tickCycle, tickCycle_wdtUnit, tick_eq_times s n⟩
      · exact ⟨idleCycle, idleCycle_wdtUnit, rfl⟩
    refine ⟨fun hn => (times_wdtRun hg hf h0 n hn).quiet.trans hquiet, fun hn => ?_⟩
    obtain ⟨u, hrun, hfires, hu⟩ := times_wdtRun_fires hg hf h0
    subst hn
    exact wdtUnit_fires_awake hu hfires (hrun.sleeping.trans hs)
  · subst ht
    refine ⟨fun hn => ?_, fun hn => ?_⟩
    · have hrun := times_wdtRun idleCycle_wdtUnit hf h0 n hn
      exact ⟨hrun.sleeping.trans hs, hrun.status⟩
    · obtain ⟨u, hrun, hfires, hu⟩ := times_wdtRun_fires idleCycle_wdtUnit hf h0
      subst hn
      rw [← hrun.status]
      exact wdtUnit_fires_asleep hu hfires (hrun.sleeping.trans hs)

end Sys2Proof.Machine
end

section
/-! A write of the data EEPROM with a fixed write time (R317): it runs for that many units of time and then completes. -/

namespace Sys2Proof.Machine

variable {s t u : State} {p n : Nat}

/-! ### One unit of a write -/

theorem eeTimerCycle_goes_on (hb : s.eeBusy = true) (he : s.eeEnds = false) :
    eeTimerCycle s = { s with eeTimer := s.eeTimer + 1 } := by
  unfold State.eeEnds at he
  rcases eeTimerCycle_cases s with ⟨h, _⟩ | ⟨_, _, e⟩ | ⟨_, hd, _⟩
  · exact absurd (h.symm.trans hb) (by simp)
  · exact e
  · rw [hb, hd] at he; exact absurd he (by simp)

/-- A write takes `p` units of time, whatever is drawn (R317). -/
structure State.EeFixed (s : State) (p : Nat) : Prop where
  min : s.cfg.eeMin = p
  max : s.cfg.eeMax = p
  pos : 0 < p

/-- In the unit of time from `s` to `t` the write timer did what it does alone, and nothing else touched what it reads. -/
structure State.EeUnit (s t : State) : Prop where
  busy : t.eeBusy = (eeTimerCycle s).eeBusy
  timer : t.eeTimer = (eeTimerCycle s).eeTimer
  eecon1 : t.eecon1 = (eeTimerCycle s).eecon1
  eeprom : t.eeprom = (eeTimerCycle s).eeprom
  addr : t.eeWAddr = s.eeWAddr
  data : t.eeWData = s.eeWData
  cfg : t.cfg = s.cfg

theorem eeTimerCycle_eeUnit (s : State) : s.EeUnit (eeTimerCycle s) :=
  ⟨rfl, rfl, rfl, rfl, lessEeWrite_eeWAddr (eeTimerCycle_frame s), lessEeWrite_eeWData (eeTimerCycle_frame s),
    lessEeWrite_cfg (eeTimerCycle_frame s)⟩

theorem tickCycle_eeUnit (s : State) : s.EeUnit (tickCycle s) where
  busy := tickCycle_eeBusy s
  timer := tickCycle_eeTimer s
  eecon1 := tickCycle_eecon1 s
  eeprom := tickCycle_eeprom s
  addr := lessTick_eeWAddr (tickCycle_frame s)
  data := lessTick_eeWData (tickCycle_frame s)
  cfg := lessTick_cfg (tickCycle_frame s)

theorem idleCycle_eeUnit (s : State) : s.EeUnit (idleCycle s) where
  busy := idleCycle_eeBusy s
  timer := idleCycle_eeTimer s
  eecon1 := idleCycle_eecon1 s
  eeprom := idleCycle_eeprom s
  addr := lessTick_eeWAddr (idleCycle_frame s)
  data := lessTick_eeWData (idleCycle_frame s)
  cfg := lessTick_cfg (idleCycle_frame s)

/-! ### A write in progress -/

/-- `t` is `n` units of time after `s`, in which a write began: it is still in progress, with EECON1 and the cells as before. -/
structure State.EeRun (s : State) (n : Nat) (t : State) : Prop where
  busy : t.eeBusy = true
  timer : t.eeTimer = n
  eecon1 : t.eecon1 = s.eecon1
  eeprom : t.eeprom = s.eeprom
  addr : t.eeWAddr = s.eeWAddr
  data : t.eeWData = s.eeWData
  cfg : t.cfg = s.cfg

/-- The write ends with its `p`-th unit. -/
theorem State.EeRun.eeEnds (h : s.EeRun n t) (hf : s.EeFixed p) : t.eeEnds = decide (p ≤ n + 1) := by
  unfold State.eeEnds
  rw [h.cfg, hf.min, hf.max, due_same, h.busy, h.timer, Bool.true_and]

theorem State.EeRun.succ (h : s.EeRun n t) (hf : s.EeFixed p) (hu : t.EeUnit u) (hn : n + 1 < p) :
    s.EeRun (n + 1) u := by
  have hends : t.eeEnds = false := (h.eeEnds hf).trans (decide_eq_false (by omega))
  constructor
  case busy => rw [hu.busy, eeTimerCycle_eeBusy, hends, h.busy]; rfl
  case timer => rw [hu.timer, eeTimerCycle_eeTimer, h.busy, h.timer]; rfl
  case eecon1 => rw [hu.eecon1, eeTimerCycle_eecon1, hends, h.eecon1]; rfl
  case eeprom => rw [hu.eeprom, eeTimerCycle_eeprom, hends, h.eeprom]; rfl
  case addr => exact hu.addr.trans h.addr
  case data => exact hu.data.trans h.data
  case cfg => exact hu.cfg.trans h.cfg

theorem times_eeRun {g : State → State} (hg : ∀ s : State, s.EeUnit (g s)) (hf : s.EeFixed p) (h0 : s.EeRun 0 s)
    (n : Nat) : n < p → s.EeRun n (times g n s) :=
  times_invariant (P := fun n t => n < p → s.EeRun n t) (fun _ => h0)
    (fun n t ih hn => (ih (by omega)).succ hf (hg t) hn) n

/-- Alone, the write timer moves nothing but its own count until then. -/
theorem times_eeTimerCycle (hf : s.EeFixed p) (h0 : s.EeRun 0 s) (n : Nat) :
    n < p → times eeTimerCycle n s = { s with eeTimer := n } := by
  refine times_invariant (P := fun n t => n < p → t = { s with eeTimer := n }) (fun _ => ?_) (fun n t ih hn => ?_) n
  · rw [← h0.timer]
  · have hrun : s.EeRun n { s with eeTimer := n } := { h0 with timer := rfl }
    have hends := (hrun.eeEnds hf).trans (decide_eq_false (by omega))
    rw [ih (by omega), eeTimerCycle_goes_on hrun.busy hends]

/-! ### Its completion -/

/-- From `s` to `t` the write that `s` has latched completed (R317). -/
structure State.EeWritten (s t : State) : Prop where
  idle : t.eeBusy = false
  wr : t.eecon1.getLsbD 1 = false
  eeif : t.eecon1.getLsbD 4 = true
  rest : ∀ k, k ≠ 1 → k ≠ 4 → t.eecon1.getLsbD k = s.eecon1.getLsbD k
  cells : ∀ a, t.eeRead a = if a = s.eeWAddr.toNat % 64 then s.eeWData else s.eeRead a

/-- The unit in which the write ends completes it. -/
theorem State.EeRun.written (h : s.EeRun n t) (hu : t.EeUnit u) (hends : t.eeEnds = true)
    (hwf : Memory.wf eepromFill s.eeprom) : s.EeWritten u := by
  have hcon : u.eecon1 = (s.eecon1 &&& 0b11101#5) ||| 0b10000#5 := by
    rw [hu.eecon1, eeTimerCycle_eecon1, hends, h.eecon1]; rfl
  constructor
  case idle => rw [hu.busy, eeTimerCycle_eeBusy, hends, Bool.not_true, Bool.and_false]
  case wr => rw [hcon, eecon1_ended_getLsbD]; rfl
  case eeif => rw [hcon, eecon1_ended_getLsbD]; rfl
  case rest => intro k h1 h4; rw [hcon, eecon1_ended_getLsbD]; simp [h1, h4]
  case cells =>
    intro a
    unfold State.eeRead
    rw [hu.eeprom, eeTimerCycle_eeprom, hends, if_pos rfl, State.setEe, h.eeprom, h.addr, h.data, Memory.read_write hwf,
      eeCell_eq]

theorem times_eeWritten {g : State → State} (hg : ∀ s : State, s.EeUnit (g s)) (hf : s.EeFixed p) (h0 : s.EeRun 0 s)
    (hwf : Memory.wf eepromFill s.eeprom) : s.EeWritten (times g p s) := by
  obtain ⟨m, rfl⟩ : ∃ m, p = m + 1 := ⟨p - 1, by have := hf.pos; omega⟩
  have hrun := times_eeRun hg hf h0 m (by omega)
  rw [times_succ_last]
  exact hrun.written (hg _) ((hrun.eeEnds hf).trans (decide_eq_true le_rfl)) hwf

/-- Settles O60: the write timer alone, a tick and an idle unit are alike to a write in progress. -/
theorem eepromWriteCompletes : Obligations.EepromWriteCompletes := by
  intro s period n hmin hmax hpos hbusy htimer hwf
  have hf : s.EeFixed period := ⟨hmin, hmax, hpos⟩
  have h0 : s.EeRun 0 s := ⟨hbusy, htimer, rfl, rfl, rfl, rfl, rfl⟩
  refine ⟨times_eeTimerCycle hf h0 n, fun t ht => ?_⟩
  obtain ⟨g, hg, rfl⟩ : ∃ g, (∀ s : State, s.EeUnit (g s)) ∧ t = times g n s := by
    rcases ht with rfl | rfl | rfl
    · exact ⟨eeTimerCycle, eeTimerCycle_eeUnit, rfl⟩
    · exact ⟨tickCycle, tickCycle_eeUnit, tick_eq_times s n⟩
    · exact ⟨idleCycle, idleCycle_eeUnit, rfl⟩
  refine ⟨fun hn => ?_, fun hn => ?_⟩
  · have hrun := times_eeRun hg hf h0 n hn
    exact ⟨hrun.busy, hrun.timer, hrun.eecon1, hrun.eeprom⟩
  · obtain rfl := hn
    have hdone := times_eeWritten hg hf h0 hwf
    exact ⟨hdone.idle, hdone.wr, hdone.eeif, hdone.rest, hdone.cells⟩

end Sys2Proof.Machine
end

section
/-! Timer0 in timer mode after a write to TMR0 (R301, R303): it stands for the write's cycle and two more, and then counts every N
cycles. -/

namespace Sys2Proof.Machine

variable {s t u : State} {v : Byte} {k : Nat}

/-! ### Pulses -/

/-- Cycle `j` after a write's own gives a pulse of a prescaler of ratio `r`: every `r`-th one does. -/
def pulseAt (r j : Nat) : Bool := decide (0 < j ∧ r ∣ j)

theorem pulseAt_zero (r : Nat) : pulseAt r 0 = false := rfl

/-- The synchroniser takes a pulse in at bit 0 and hands its last one on to bit 1 (R301). -/
theorem syncShift_getLsbD : ∀ (x : BitVec 2) (b : Bool),
    (x.extractLsb' 0 1 ++ BitVec.ofBool b : BitVec 2).getLsbD 0 = b
    ∧ (x.extractLsb' 0 1 ++ BitVec.ofBool b : BitVec 2).getLsbD 1 = x.getLsbD 0 := by
  decide

/-- The pulses among the first `m` cycles. -/
theorem div_eq_pulses (r m : Nat) : m / r = (m - 1) / r + if pulseAt r m then 1 else 0 := by
  cases m with
  | zero => simp [pulseAt]
  | succ m => simp [pulseAt, Nat.succ_div]

/-- A prescaler of eight bits passes a multiple of a ratio that divides 256 exactly where the count since it was cleared is one. -/
theorem prescaler_passes_iff {r : Nat} (hr : r ∣ 256) (k : Nat) : k % 256 / r < (k % 256 + 1) / r ↔ r ∣ k + 1 := by
  have hsplit : k + 1 = k % 256 + 1 + 256 * (k / 256) := by omega
  rw [hsplit, Nat.dvd_add_left (hr.mul_right _), Nat.succ_div]
  by_cases h : r ∣ k % 256 + 1
  · simp [h]
  · simp [h]

/-! ### One cycle -/

/-- How many cycles Timer0 takes to count once: 2^(PS + 1) for PSA = 0, one for PSA = 1 (R301). -/
def State.t0Div (s : State) : Nat := if s.psa then 1 else 2 ^ (s.ps + 1)

theorem t0Div_of_psa (h : s.psa = true) : s.t0Div = 1 := if_pos h

/-- For PSA = 0 it is the prescaler's ratio. -/
theorem t0Div_of_not_psa (h : s.psa = false) : s.t0Div = s.t0Ratio := by
  unfold State.t0Div State.t0Ratio; rw [h, Nat.pow_succ']; rfl

theorem t0Ratio_dvd (s : State) : s.t0Ratio ∣ 256 := by
  have hps : s.ps + 1 ≤ 8 := Nat.succ_le_of_lt (BitVec.isLt _)
  unfold State.t0Ratio
  rw [← Nat.pow_succ']
  exact Nat.pow_dvd_pow 2 hps

/-- In the cycle from `s` to `t` Timer0 did what it does alone, and nothing else touched what it reads. -/
structure State.Timer0Unit (s t : State) : Prop where
  tmr0 : t.tmr0 = (timer0Cycle s).tmr0
  sync : t.t0Sync = (timer0Cycle s).t0Sync
  skip : t.t0Skip = false
  presc : s.psa = false → t.presc = (timer0Cycle s).presc
  optionReg : t.optionReg = s.optionReg

theorem timer0Cycle_timer0Unit (s : State) : s.Timer0Unit (timer0Cycle s) :=
  ⟨rfl, rfl, timer0Cycle_t0Skip s, fun _ => rfl, lessTimer0_optionReg (timer0Cycle_frame s)⟩

theorem tickCycle_timer0Unit (s : State) : s.Timer0Unit (tickCycle s) where
  tmr0 := tickCycle_tmr0 s
  sync := tickCycle_t0Sync s
  skip := tickCycle_t0Skip s
  presc := fun h => by rw [tickCycle_presc, h]; rfl
  optionReg := lessTick_optionReg (tickCycle_frame s)

/-! ### The cycles after a write -/

/-- `t` is `k` cycles after the cycle in which `v` was written to the TMR0 of `s`: the prescaler has counted them, its last two
pulses are in the synchroniser, and TMR0 has counted those before. -/
structure State.Timer0Run (s : State) (v : Byte) (k : Nat) (t : State) : Prop where
  tmr0 : t.tmr0 = BitVec.ofNat 8 (v.toNat + (k - 2) / s.t0Div)
  last : t.t0Sync.getLsbD 0 = pulseAt s.t0Div k
  before : t.t0Sync.getLsbD 1 = pulseAt s.t0Div (k - 1)
  skip : t.t0Skip = false
  presc : s.psa = false → t.presc.toNat = k % 256
  optionReg : t.optionReg = s.optionReg

/-- The cycle of the write itself is skipped (R303). -/
theorem timer0Run_zero (hu : (writeTmr0 v s).Timer0Unit u) : s.Timer0Run v 0 u := by
  have hsync : u.t0Sync = 0b00#2 := by rw [hu.sync, timer0Cycle_t0Sync]; rfl
  constructor
  case tmr0 => rw [hu.tmr0, timer0Cycle_tmr0, Nat.zero_sub, Nat.zero_div, Nat.add_zero, BitVec.ofNat_toNat]; rfl
  case last => rw [hsync, pulseAt_zero]; rfl
  case before => rw [hsync, pulseAt_zero]; rfl
  case skip => exact hu.skip
  case presc =>
    intro h
    have hz : (writeTmr0 v s).presc = 0x00#8 := if_neg (Bool.eq_false_iff.mp h)
    rw [hu.presc h, timer0Cycle_presc]
    exact congrArg BitVec.toNat hz
  case optionReg => exact hu.optionReg

theorem State.Timer0Run.psa (h : s.Timer0Run v k t) : t.psa = s.psa := by unfold State.psa; rw [h.optionReg]

theorem State.Timer0Run.t0Ratio (h : s.Timer0Run v k t) : t.t0Ratio = s.t0Ratio := by
  unfold State.t0Ratio State.ps; rw [h.optionReg]

/-- In timer mode the prescaler takes one pulse in each cycle (R301). -/
theorem State.Timer0Run.t0Pulses (h : s.Timer0Run v k t) (hc : s.t0cs = false) : t.t0Pulses = 1 := by
  unfold State.t0Pulses State.t0cs
  rw [h.optionReg]
  exact if_neg (Bool.eq_false_iff.mp hc)

/-- The next cycle's pulse. -/
theorem State.Timer0Run.prescalePulse (h : s.Timer0Run v k t) : prescalePulse 1 t = pulseAt s.t0Div (k + 1) := by
  unfold Machine.prescalePulse pulseAt
  rw [h.psa]
  cases hp : s.psa with
  | true => rw [t0Div_of_psa hp]; simp
  | false =>
    rw [t0Div_of_not_psa hp, h.t0Ratio, h.presc hp]
    simp [prescaler_passes_iff (t0Ratio_dvd s)]

theorem State.Timer0Run.succ (h : s.Timer0Run v k t) (hc : s.t0cs = false) (hu : t.Timer0Unit u) :
    s.Timer0Run v (k + 1) u := by
  have hsync : u.t0Sync = (t.t0Sync.extractLsb' 0 1 ++ BitVec.ofBool (pulseAt s.t0Div (k + 1)) : BitVec 2) := by
    rw [hu.sync, timer0Cycle_t0Sync, h.skip, h.t0Pulses hc, h.prescalePulse]; rfl
  constructor
  case tmr0 =>
    rw [hu.tmr0, timer0Cycle_tmr0, h.skip, h.before, h.tmr0, show k + 1 - 2 = k - 1 by omega,
      div_eq_pulses s.t0Div (k - 1), show k - 1 - 1 = k - 2 by omega]
    cases pulseAt s.t0Div (k - 1) with
    | false => rfl
    | true => exact (BitVec.ofNat_add _ 1).symm
  case last => rw [hsync]; exact (syncShift_getLsbD _ _).1
  case before => rw [hsync, Nat.add_sub_cancel, ← h.last]; exact (syncShift_getLsbD _ _).2
  case skip => exact hu.skip
  case presc =>
    intro hp
    rw [hu.presc (h.psa.trans hp), timer0Cycle_presc, h.skip, h.psa, hp, h.t0Pulses hc, h.presc hp]
    simp
  case optionReg => exact hu.optionReg.trans h.optionReg

/-- After a write TMR0 holds for three cycles and then counts one for every N. -/
theorem times_tmr0_after_write {g : State → State} (hg : ∀ s : State, s.Timer0Unit (g s)) (hc : s.t0cs = false)
    (v : Byte) (n : Nat) :
    (times g n (writeTmr0 v s)).tmr0 = BitVec.ofNat 8 (v.toNat + (n - 3) / s.t0Div) := by
  cases n with
  | zero => rw [Nat.zero_sub, Nat.zero_div, Nat.add_zero, BitVec.ofNat_toNat]; rfl
  | succ k =>
    have hrun : s.Timer0Run v k (times g k (g (writeTmr0 v s))) :=
      times_invariant (timer0Run_zero (hg _)) (fun _ t h => h.succ hc (hg t)) k
    exact hrun.tmr0

theorem times_idleCycle_tmr0 (s : State) (n : Nat) : (times idleCycle n s).tmr0 = s.tmr0 :=
  times_invariant (P := fun _ t => t.tmr0 = s.tmr0) rfl (fun _ t h => (idleCycle_tmr0 t).trans h) n

/-- Settles O53: a cycle of Timer0 alone and a tick are alike to Timer0. -/
theorem timer0CountsAfterAWrite : Obligations.Timer0CountsAfterAWrite := by
  refine fun s v n => ⟨fun hc t ht => ?_, times_idleCycle_tmr0 s n⟩
  rcases ht with rfl | rfl
  · exact times_tmr0_after_write timer0Cycle_timer0Unit hc v n
  · rw [tick_eq_times]
    exact times_tmr0_after_write tickCycle_timer0Unit hc v n

end Sys2Proof.Machine
end

section
/-! Timer0 in counter mode (R301, R304): the edges on RA4/T0CKI, the prescaler and the two-cycle synchroniser. -/

namespace Sys2Proof.Machine

variable {s t : State}

/-! ### The edges -/

/-- T0SE selects the edge between T0PREV and the pin; the environment's further edges come on top (R304, U8). -/
theorem t0Edges_eq (s : State) :
    s.t0Edges = (if (if s.optionReg.getLsbD 4 then s.t0Prev && !s.pinA 4 else !s.t0Prev && s.pinA 4) then 1 else 0)
      + s.pins.t0Edges := rfl

theorem t0Pulses_of_counter (hc : s.t0cs = true) : s.t0Pulses = s.t0Edges := if_pos hc

/-! ### The prescaler -/

/-- A quotient grows from `a` to `b` exactly if a multiple of the divisor lies above `a` and not above `b`. -/
theorem div_lt_div_iff_exists_multiple {r : Nat} (hr : 0 < r) (a b : Nat) :
    a / r < b / r ↔ ∃ k, a < k * r ∧ k * r ≤ b := by
  simp only [← Nat.div_lt_iff_lt_mul hr, ← Nat.le_div_iff_mul_le hr]
  exact ⟨fun h => ⟨b / r, h, le_rfl⟩, fun ⟨_, hlo, hhi⟩ => hlo.trans_le hhi⟩

/-- For PSA = 1 the pulses go past the prescaler (R301). -/
theorem prescalePulse_of_psa (h : s.psa = true) (e : Nat) : prescalePulse e s = decide (0 < e) := if_pos h

/-- For PSA = 0 the prescaler gives a pulse where its count passes a multiple of the ratio (R301). -/
theorem prescalePulse_iff_of_not_psa (h : s.psa = false) (e : Nat) :
    prescalePulse e s = true ↔
      ∃ k, s.presc.toNat < k * 2 ^ (s.ps + 1) ∧ k * 2 ^ (s.ps + 1) ≤ s.presc.toNat + e := by
  have hratio : s.t0Ratio = 2 ^ (s.ps + 1) := (Nat.pow_succ' ..).symm
  unfold prescalePulse
  rw [h, if_neg Bool.false_ne_true, decide_eq_true_iff, hratio]
  exact div_lt_div_iff_exists_multiple (Nat.two_pow_pos _) _ _

/-! ### One cycle -/

/-- T0PREV follows the pin, in a cycle of Timer0 and, whether the Watchdog wakes the device or not, in a tick (R304). -/
theorem timer0Cycle_t0Prev_of_counter (hc : s.t0cs = true) : (timer0Cycle s).t0Prev = s.pinA 4 := by
  rw [timer0Cycle_t0Prev, hc, Bool.or_true]; rfl

theorem tickCycle_t0Prev_of_counter (hc : s.t0cs = true) : (tickCycle s).t0Prev = s.pinA 4 := by
  rw [tickCycle_t0Prev, timer0Cycle_t0Prev_of_counter hc]
  exact ite_self _

/-- Where no write of TMR0 holds it up, TMR0 counts the older pulse in the synchroniser (R301). -/
theorem State.Timer0Unit.tmr0_of_runs (hu : s.Timer0Unit t) (hk : s.t0Skip = false) :
    t.tmr0 = if s.t0Sync.getLsbD 1 then s.tmr0 + 0x01#8 else s.tmr0 := by
  rw [hu.tmr0, timer0Cycle_tmr0, hk]; rfl

/-- The synchroniser takes in what the prescaler makes of the edges. -/
theorem State.Timer0Unit.sync_of_counter (hu : s.Timer0Unit t) (hk : s.t0Skip = false) (hc : s.t0cs = true) :
    t.t0Sync.getLsbD 0 = prescalePulse s.t0Edges s ∧ t.t0Sync.getLsbD 1 = s.t0Sync.getLsbD 0 := by
  rw [hu.sync, timer0Cycle_t0Sync, hk, t0Pulses_of_counter hc]
  exact syncShift_getLsbD _ _

/-- As Timer0's, the prescaler counts the edges modulo 256. -/
theorem State.Timer0Unit.presc_of_counter (hu : s.Timer0Unit t) (hk : s.t0Skip = false) (hc : s.t0cs = true)
    (hp : s.psa = false) : t.presc.toNat = (s.presc.toNat + s.t0Edges) % 256 := by
  rw [hu.presc hp, timer0Cycle_presc, hk, hp, t0Pulses_of_counter hc]
  exact BitVec.toNat_ofNat _ _

/-- As the Watchdog's, Timer0 leaves it alone. -/
theorem timer0Cycle_presc_of_psa (hp : s.psa = true) : (timer0Cycle s).presc = s.presc := by
  rw [timer0Cycle_presc, hp, Bool.or_true]; rfl

/-- Settles O55: a cycle of Timer0 alone and a tick are alike to Timer0. -/
theorem counterModeCountsSelectedEdges : Obligations.CounterModeCountsSelectedEdges := by
  intro s e hk hc he
  rw [← t0Edges_eq] at he
  subst he
  refine ⟨fun t ht => ?_, timer0Cycle_presc_of_psa⟩
  obtain ⟨hu, hprev⟩ : s.Timer0Unit t ∧ t.t0Prev = s.pinA 4 := by
    rcases ht with rfl | rfl
    · exact ⟨timer0Cycle_timer0Unit s, timer0Cycle_t0Prev_of_counter hc⟩
    · exact ⟨tickCycle_timer0Unit s, tickCycle_t0Prev_of_counter hc⟩
  obtain ⟨htakes, hhands⟩ := hu.sync_of_counter hk hc
  refine ⟨hprev, hhands, hu.tmr0_of_runs hk, fun hp => ?_, fun hp => ⟨hu.presc_of_counter hk hc hp, ?_⟩⟩
  · rw [htakes, prescalePulse_of_psa hp]
  · rw [htakes, prescalePulse_iff_of_not_psa hp]

end Sys2Proof.Machine
end

section
/-! The levels of the pins (R279, R280, R284). -/

namespace Sys2Proof.Machine

variable {s : State} {n : Nat}

/-- An output of PORTA shows its latch, but RA4 a latched 0 only (R280). -/
theorem pinA_of_output (ht : s.trisa.getLsbD n = false) (hl : n ≠ 4 ∨ s.lata.getLsbD n = false) :
    s.pinA n = s.lata.getLsbD n := by
  refine if_pos ?_
  rcases hl with h | h
  · simp [ht, h]
  · simp [ht, h]

/-- An input of PORTA, or RA4 released by its latch, shows what drives it. -/
theorem pinA_of_driven (hr : s.trisa.getLsbD n = true ∨ n = 4 ∧ s.lata.getLsbD n = true)
    (hd : s.pins.raDriven.getLsbD n = true) : s.pinA n = s.pins.raLevel.getLsbD n := by
  refine (if_neg ?_).trans (if_pos hd)
  rcases hr with ht | ⟨h4, hl⟩
  · simp [ht]
  · simp [h4, h4 ▸ hl]

theorem pinB_of_output (ht : s.trisb.getLsbD n = false) : s.pinB n = s.latb.getLsbD n := if_pos (by rw [ht]; rfl)

theorem pinB_of_input (ht : s.trisb.getLsbD n = true) :
    s.pinB n = if s.pins.rbDriven.getLsbD n then s.pins.rbLevel.getLsbD n
      else if s.pullUps then true else (Config.floatB s.draws).getLsbD n :=
  if_neg (by rw [ht]; exact Bool.false_ne_true)

theorem pinB_of_driven (ht : s.trisb.getLsbD n = true) (hd : s.pins.rbDriven.getLsbD n = true) :
    s.pinB n = s.pins.rbLevel.getLsbD n := (pinB_of_input ht).trans (if_pos hd)

/-- RBPU = 0 turns the pull-ups on (R284). -/
theorem pinB_of_pulledUp (ht : s.trisb.getLsbD n = true) (hd : s.pins.rbDriven.getLsbD n = false)
    (hp : s.optionReg.getLsbD 7 = false) : s.pinB n = true := by
  have hup : s.pullUps = true := by unfold State.pullUps; rw [hp]; rfl
  rw [pinB_of_input ht, hd, hup]; rfl

/-- Settles O56. -/
theorem pinLevels : Obligations.PinLevels := fun _ =>
  ⟨fun _ hn ht => pinA_of_output ht (.inl hn.ne), fun _ _ ht hd => pinA_of_driven (.inl ht) hd,
    fun ht hl => (pinA_of_output ht (.inr hl)).trans hl, fun _ hl hd => pinA_of_driven (.inr ⟨rfl, hl⟩) hd,
    fun _ _ ht => pinB_of_output ht, fun _ _ ht hd => pinB_of_driven ht hd,
    fun _ _ ht hd hp => pinB_of_pulledUp ht hd hp⟩

end Sys2Proof.Machine
end

section
/-! The registers of the data EEPROM's sequences: EECON2's detector (R314), and a write of EECON1 (R312, R313, R315). -/

namespace Sys2Proof.Machine

variable {s : State} {v : Byte}

/-! ### EECON2 -/

theorem writeEecon2_55 (s : State) : writeEecon2 0x55#8 s = { s with eeSeq := .got55 } := rfl

theorem writeEecon2_AA_after_55 (h : s.eeSeq = .got55) : writeEecon2 0xAA#8 s = { s with eeSeq := .gotAA } := by
  unfold writeEecon2; rw [if_neg (by decide), if_pos ⟨rfl, h⟩]

/-- Any other value or order sends the detector back to its start. -/
theorem writeEecon2_idle (h55 : v ≠ 0x55#8) (hAA : ¬(v = 0xAA#8 ∧ s.eeSeq = .got55)) :
    writeEecon2 v s = { s with eeSeq := .idle } := by
  unfold writeEecon2; rw [if_neg h55, if_neg hAA]

/-- Only EECON1 and EECON2 move the detector. -/
theorem memWrite_eeSeq {loc : Loc} (h1 : loc ≠ .eecon1) (h2 : loc ≠ .eecon2) (v : Byte) (nf : Bool) (s : State) :
    (memWrite loc v nf s).eeSeq = s.eeSeq := by
  cases loc
  case eecon1 => exact absurd rfl h1
  case eecon2 => exact absurd rfl h2
  all_goals rfl

/-- Settles O59. -/
theorem eepromUnlockSequence : Obligations.EepromUnlockSequence := fun v b s =>
  ⟨writeEecon2_55 s, writeEecon2_AA_after_55, fun h => writeEecon2_idle (by decide) fun ⟨_, h55⟩ => h h55,
    fun h55 hAA => writeEecon2_idle h55 fun ⟨hv, _⟩ => hAA hv, fun _ h1 h2 => memWrite_eeSeq h1 h2 v b s⟩

/-! ### EECON1: the store and the read -/

/-- EECON1 takes EEIF, WRERR and WREN from the byte and keeps WR and RD (R312), bit by bit. -/
theorem eecon1_stored_getLsbD (v : Byte) (e : BitVec 5) (n : Nat) :
    (v.extractLsb' 2 3 ++ e.extractLsb' 0 2 : BitVec 5).getLsbD n
      = if n < 2 then e.getLsbD n else decide (n < 5) && v.getLsbD n := by
  show (@BitVec.getLsbD (3 + 2) (_ ++ _) n) = _
  rw [BitVec.getLsbD_append, BitVec.getLsbD_extractLsb', BitVec.getLsbD_extractLsb']
  by_cases h : n < 2
  · simp [h]
  · simp [h, show n - 2 < 3 ↔ n < 5 by omega, show 2 + (n - 2) = n by omega]

/-- EERead changes EEDATA, and counts a draw where it takes one (R313). -/
theorem eeReadOp_eq (s : State) :
    eeReadOp s = { s with eedata := (eeReadOp s).eedata, draws := (eeReadOp s).draws } := by
  unfold eeReadOp; split <;> rfl

/-- A cell that is not being written is read as it stands (R313). -/
theorem eeReadOp_eedata (h : s.eeBusy = false ∨ s.eeadr.toNat % 64 ≠ s.eeWAddr.toNat % 64) :
    (eeReadOp s).eedata = s.eeRead (s.eeadr.toNat % 64) := by
  simp only [← eeCell_eq] at h ⊢
  unfold eeReadOp
  rw [if_neg]
  rcases h with h | h
  · simp [h]
  · simp [h]

/-- The state in which a write of EECON1 decides whether a write of a cell starts: the byte is stored, RD has read. -/
def State.eecon1Stored (v : Byte) (s : State) : State :=
  let stored : State := { s with eecon1 := v.extractLsb' 2 3 ++ s.eecon1.extractLsb' 0 2 }
  if v.getLsbD 0 then eeReadOp stored else stored

theorem eecon1Stored_eq (v : Byte) (s : State) :
    s.eecon1Stored v = { s with
      eecon1 := v.extractLsb' 2 3 ++ s.eecon1.extractLsb' 0 2, eedata := (s.eecon1Stored v).eedata,
      draws := (s.eecon1Stored v).draws } := by
  simp only [State.eecon1Stored]
  split
  · exact eeReadOp_eq _
  · rfl

theorem eecon1Stored_eedata_of_not_rd (h : v.getLsbD 0 = false) : (s.eecon1Stored v).eedata = s.eedata := by
  unfold State.eecon1Stored; rw [h]; rfl

theorem eecon1Stored_eedata_of_rd (h : v.getLsbD 0 = true)
    (hcell : s.eeBusy = false ∨ s.eeadr.toNat % 64 ≠ s.eeWAddr.toNat % 64) :
    (s.eecon1Stored v).eedata = s.eeRead (s.eeadr.toNat % 64) := by
  unfold State.eecon1Stored
  rw [if_pos h]
  exact eeReadOp_eedata hcell

/-! ### EECON1: the start of a write -/

/-- The byte `v` in EECON1 starts a write (R312, R315). -/
def State.eeStarts (v : Byte) (s : State) : Bool :=
  v.getLsbD 1 && !s.eecon1.getLsbD 1 && (s.eecon1.getLsbD 2 && decide (s.eeSeq = .gotAA) && !s.eeBusy)

theorem eeStarts_iff (v : Byte) (s : State) :
    s.eeStarts v = true ↔ v.getLsbD 1 = true ∧ s.eecon1.getLsbD 1 = false ∧ s.eecon1.getLsbD 2 = true
      ∧ s.eeSeq = .gotAA ∧ s.eeBusy = false := by
  simp [State.eeStarts, and_assoc]

/-- After the store and the read a write of EECON1 starts a write of a cell, or it spends the sequence and no more. -/
theorem writeEecon1_eq (v : Byte) (s : State) :
    writeEecon1 v s = if s.eeStarts v then
        { s.eecon1Stored v with
          eecon1 := (s.eecon1Stored v).eecon1 ||| 0b00010#5, eeBusy := true, eeWAddr := s.eeadr,
          eeWData := (s.eecon1Stored v).eedata, eeTimer := 0, eeSeq := .idle }
      else { s.eecon1Stored v with eeSeq := .idle } := by
  have hw : writeEecon1 v s = if v.getLsbD 1 && !s.eecon1.getLsbD 1
      then eeStartWrite (s.eecon1.getLsbD 2) (s.eecon1Stored v) else { s.eecon1Stored v with eeSeq := .idle } := rfl
  rw [hw, State.eeStarts, eecon1Stored_eq]
  cases v.getLsbD 1 && !s.eecon1.getLsbD 1 with
  | false => rfl
  | true => rw [if_pos rfl, Bool.true_and]; rfl

/-- EECON1 takes EEIF, WRERR and WREN from the byte and keeps RD; WR is set where a write starts (R312, R315). -/
theorem writeEecon1_eecon1_getLsbD (v : Byte) (s : State) (n : Nat) :
    (writeEecon1 v s).eecon1.getLsbD n
      = ((if n < 2 then s.eecon1.getLsbD n else decide (n < 5) && v.getLsbD n) || (decide (n = 1) && s.eeStarts v)) := by
  rw [writeEecon1_eq, eecon1Stored_eq, ← eecon1_stored_getLsbD]
  cases s.eeStarts v with
  | false => rw [Bool.and_false, Bool.or_false]; rfl
  | true =>
    have hwr : (0b00010#5).getLsbD n = decide (n = 1) := bitMask_getLsbD 1#3 n
    rw [Bool.and_true, ← hwr]
    exact BitVec.getLsbD_or

/-- Starting a write leaves EEDATA as the read left it. -/
theorem writeEecon1_eedata (v : Byte) (s : State) : (writeEecon1 v s).eedata = (s.eecon1Stored v).eedata := by
  rw [writeEecon1_eq]; split <;> rfl

/-- Settles O58. -/
theorem eecon1Write : Obligations.Eecon1Write := by
  intro v b s
  have hbit := writeEecon1_eecon1_getLsbD v s
  have hdata := writeEecon1_eedata v s
  refine ⟨writeEecon1 v s, s.eeStarts v, rfl, eeStarts_iff v s, by simpa using hbit 4, by simpa using hbit 3,
    by simpa using hbit 2, by simpa using hbit 1, by simpa using hbit 0,
    fun h => hdata.trans (eecon1Stored_eedata_of_not_rd h),
    fun h hcell => hdata.trans (eecon1Stored_eedata_of_rd h hcell), ?_⟩
  rw [hdata, writeEecon1_eq, eecon1Stored_eq]
  cases s.eeStarts v with
  | false =>
    exact ⟨(Bool.or_false _).symm, rfl, rfl, rfl, fun h => absurd h Bool.false_ne_true, fun _ => ⟨rfl, rfl, rfl⟩⟩
  | true =>
    exact ⟨(Bool.or_true _).symm, rfl, rfl, rfl, fun _ => ⟨rfl, rfl, rfl⟩, fun h => absurd h.symm Bool.false_ne_true⟩

end Sys2Proof.Machine
end

section
/-! What the resets leave, register by register (R342 to R346), and the state a run begins in. A Power-on Reset is `warmReset`
with more registers unknown, so both tables come from the bits of `warmReset` and from what `porUnknowns` leaves alone. -/

namespace Sys2Proof.Machine

variable {s t : State} {k : ResetKind}

/-! ### The bits every reset keeps -/

/-- RBIF after an MCLR or WDT reset (R344 column B). -/
theorem warmReset_rbif (k : ResetKind) (s : State) : (warmReset k s).intcon.getLsbD 0 = s.intcon.getLsbD 0 := by
  show (@BitVec.getLsbD (7 + 1) (_ ++ _) 0) = _
  simp only [BitVec.getLsbD_append, BitVec.getLsbD_extractLsb']
  rfl

/-- WRERR after a reset: set by the write cut short, otherwise as it was (R346). -/
theorem warmReset_wrerr (k : ResetKind) (s : State) :
    (warmReset k s).eecon1.getLsbD 3 = (s.eeBusy || s.eecon1.getLsbD 3) := by
  show (@BitVec.getLsbD (1 + 1 + 3) (_ ++ _) 3) = _
  simp only [BitVec.getLsbD_append, BitVec.getLsbD_ofBool]
  simp

/-! ### The bits the unknowns of a Power-on Reset leave alone -/

/-- A word whose bits below `lo` are replaced has its other bits as before. -/
theorem extractLsb'_append_getLsbD {w lo len n : Nat} (x : BitVec w) (y : BitVec lo) (hw : w = len + lo) (hn : lo ≤ n) :
    (x.extractLsb' lo len ++ y).getLsbD n = x.getLsbD n := by
  rw [BitVec.getLsbD_append, if_neg (by omega), BitVec.getLsbD_extractLsb', Nat.add_sub_cancel' hn]
  by_cases hlt : n < w
  · rw [decide_eq_true (by omega), Bool.true_and]
  · rw [BitVec.getLsbD_of_ge _ _ (by omega), Bool.and_false]

/-- Of STATUS only the flags are unknown (R344 column A). -/
theorem porUnknowns_status_high (d : Nat) (s : State) {n : Nat} (hn : 3 ≤ n) :
    (porUnknowns d s).status.getLsbD n = s.status.getLsbD n :=
  extractLsb'_append_getLsbD s.status _ rfl hn

/-- Of INTCON only RBIF is unknown. -/
theorem porUnknowns_intcon_high (d : Nat) (s : State) {n : Nat} (hn : 1 ≤ n) :
    (porUnknowns d s).intcon.getLsbD n = s.intcon.getLsbD n :=
  extractLsb'_append_getLsbD s.intcon _ rfl hn

/-- Of EECON1 only WRERR is unknown. -/
theorem porUnknowns_eecon1 (d : Nat) (s : State) {n : Nat} (hn : n ≠ 3) :
    (porUnknowns d s).eecon1.getLsbD n = s.eecon1.getLsbD n := by
  rcases Nat.lt_or_gt_of_ne hn with h | h
  · exact porUnknowns_eecon1_low d h
  · show (@BitVec.getLsbD (1 + 1 + 3) (_ ++ _) n) = _
    rw [BitVec.getLsbD_append, if_neg (by omega), BitVec.getLsbD_append, if_neg (by omega), BitVec.getLsbD_extractLsb']
    by_cases h5 : n < 5
    · obtain rfl : n = 4 := by omega
      rfl
    · rw [BitVec.getLsbD_of_ge _ n (by omega), BitVec.getLsbD_of_ge _ _ (by omega), Bool.and_false]

/-! ### The data EEPROM -/

/-- A reset leaves every cell but the one of a write it cuts short (R346). -/
theorem State.EeReset.eeRead_other (h : s.EeReset t) (hwf : Memory.wf eepromFill s.eeprom) {a : Nat}
    (ha : ¬(s.eeBusy = true ∧ a = s.eeWAddr.toNat % 64)) : t.eeRead a = s.eeRead a := by
  unfold State.eeRead
  cases hb : s.eeBusy with
  | false => rw [h.kept hb]
  | true =>
    obtain ⟨v, hv⟩ := h.cells hb
    have hne : a ≠ eeCell s.eeWAddr := fun e => ha ⟨hb, e.trans (eeCell_eq _)⟩
    rw [hv, Memory.read_write_other hwf v hne]

/-! ### The two tables -/

/-- Settles O50. -/
theorem warmResetTable : Obligations.WarmResetTable := by
  intro k s hk hwf
  have hcells := deviceReset_eeReset k s
  rw [deviceReset_warm hk] at hcells ⊢
  have htoPd (toBit pdBit : Bool) (h : resetToPd k s.status = (toBit, pdBit)) :
      (warmReset k s).timeOut = toBit ∧ (warmReset k s).powerDown = pdBit :=
    ⟨warmReset_timeOut.trans (congrArg Prod.fst h), warmReset_powerDown.trans (congrArg Prod.snd h)⟩
  exact ⟨_, rfl, rfl, fun _ => warmReset_status_high, fun _ => warmReset_status_low,
    fun h => htoPd _ _ (h ▸ rfl), fun h => htoPd _ _ (h ▸ rfl), fun h => htoPd _ _ (h ▸ rfl),
    rfl, fun _ => warmReset_intcon_high, warmReset_rbif k s, rfl, rfl, rfl,
    fun _ => warmReset_eecon1, warmReset_wrerr k s,
    rfl, rfl, rfl, rfl, rfl, rfl, rfl, rfl, rfl, rfl, rfl, rfl, rfl, rfl, rfl, rfl,
    fun _ => hcells.eeRead_other hwf⟩

/-- Settles O51. -/
theorem powerOnResetTable : Obligations.PowerOnResetTable := by
  intro s hwf
  have hstatus : ∀ n, 5 ≤ n → (deviceReset .por s).status.getLsbD n = false := fun n hn =>
    (porUnknowns_status_high s.draws _ (by omega)).trans (warmReset_status_high hn)
  have hintcon : ∀ n, 1 ≤ n → (deviceReset .por s).intcon.getLsbD n = false := fun n hn =>
    (porUnknowns_intcon_high s.draws _ hn).trans (warmReset_intcon_high hn)
  have heecon1 : ∀ n, n ≠ 3 → (deviceReset .por s).eecon1.getLsbD n = false := fun n hn =>
    (porUnknowns_eecon1 s.draws _ hn).trans (warmReset_eecon1 hn)
  exact ⟨_, rfl, rfl, hstatus, (porUnknowns_timeOut s.draws).trans warmReset_timeOut,
    (porUnknowns_powerDown s.draws).trans warmReset_powerDown, rfl, hintcon, rfl, rfl, rfl, heecon1,
    rfl, rfl, rfl, rfl, rfl, rfl, rfl, rfl, fun _ => (deviceReset_eeReset .por s).eeRead_other hwf⟩

/-! ### The state a run begins in -/

/-- Settles O8: awake and out of reset with empty arrays, so only the two bits of EECON1 and the bounds say something. -/
theorem invariantAtReset : Obligations.InvariantAtReset :=
  have hdata : State.reset.DataInv :=
    { ramForm := Memory.wf_nil
      ramRange := List.forall_mem_nil _
      eepromForm := Memory.wf_nil
      eepromRange := List.forall_mem_nil _
      progForm := Memory.wf_nil
      progRange := List.forall_mem_nil _
      rdClear := rfl
      wrBusy := rfl
      oneOrTwo := Or.inl rfl
      wdtBound := fun _ h0 => h0
      eeBound := fun _ h0 _ => h0 }
  hdata.inv rfl rfl

/-- STATUS[7:5] of the state a run begins in: 18h has no bit above bit 4. -/
theorem reset_status_high {n : Nat} (hn : 5 ≤ n) : State.reset.status.getLsbD n = false :=
  Nat.testBit_lt_two_pow (lt_of_lt_of_le (by decide : 0x18 < 2 ^ 5) (Nat.pow_le_pow_right (by decide) hn))

/-- Settles O52. -/
theorem resetStateValues : Obligations.ResetStateValues :=
  ⟨rfl, fun _ => reset_status_high, rfl, rfl, rfl, fun _ _ => BitVec.getLsbD_zero, rfl, rfl, rfl,
    fun _ _ => BitVec.getLsbD_zero, rfl, rfl, rfl, rfl, rfl⟩

end Sys2Proof.Machine
end
